-- ==== Sys2Proof/Word.lean ====
section
/-! DEFINITION. The two word types of the machine (`00_scope.md` R6, R9): 8-bit data and 16-bit
addresses. Their arithmetic is that of `BitVec`, which masks every result to its width (R11). -/

namespace Sys2Proof

/-- An unsigned 8-bit value: a register, a status byte, one byte on the bus (R6). -/
abbrev Byte := BitVec 8

/-- An unsigned 16-bit value: PC, the effective address, a bus address (R6). -/
abbrev Addr := BitVec 16

end Sys2Proof
end

