-- ==== Sys2Proof/Syntax.lean ====
section
/-! DEFINITION. The instructions as syntax: the mnemonics, the addressing-mode tags, the
operand forms, and `Instr`, with one constructor for each of the 151 documented rows of
`opcode_table.json` and one for the sentinel entry ILLEGAL that its other 105 rows share
(`30_encoding.md` R62, R64; log 10). -/

namespace Sys2Proof

/-- The 56 mnemonics and the sentinel ILLEGAL (`30_encoding.md` R61, R62, R64). -/
inductive Mnemonic where
  | LDA | LDX | LDY | STA | STX | STY
  | ADC | SBC | CMP | CPX | CPY
  | AND | ORA | EOR | BIT | ASL | LSR | ROL | ROR
  | INC | DEC | INX | INY | DEX | DEY | TAX | TAY | TXA | TYA | TSX | TXS | CLC | SEC | CLI | SEI | CLD | SED | CLV
  | PHA | PHP | PLA | PLP
  | BCC | BCS | BEQ | BNE | BMI | BPL | BVC | BVS | JMP | JSR | RTS
  | BRK | RTI | NOP
  | ILLEGAL
  deriving DecidableEq, Repr

/-- The 13 addressing-mode tags (`30_encoding.md` R57). -/
inductive Mode where
  | IMP | ACC | IMM | ZP0 | ZPX | ZPY | REL | IZX | IZY | ABS | ABX | ABY | IND
  deriving DecidableEq, Repr

/-- An opcode-table entry: the triple `Decode` gives and `cur` holds (`30_encoding.md` R61,
`10_state.md` R32). -/
structure OpEntry where
  mnemonic   : Mnemonic
  mode       : Mode
  baseCycles : Nat
  deriving DecidableEq, Repr

/-- A row of `opcode_table.json`: the opcode byte and its entry. -/
structure OpRow where
  opcode : Byte
  entry  : OpEntry
  deriving DecidableEq, Repr

/-- An addressing mode with its operand bytes assembled (`30_encoding.md` R60): a byte `b`, or a
word `w` whose low byte is the first operand byte. `rel` holds the offset byte as encoded. -/
inductive Operand where
  | imp
  | acc
  | imm (b : Byte)
  | zp0 (b : Byte)
  | zpx (b : Byte)
  | zpy (b : Byte)
  | rel (b : Byte)
  | izx (b : Byte)
  | izy (b : Byte)
  | abs (w : Addr)
  | abx (w : Addr)
  | aby (w : Addr)
  | ind (w : Addr)
  deriving DecidableEq, Repr

/-- One constructor per documented opcode, named mnemonic then mode; the mode is left out of the
name where the mnemonic has only an implied, a relative or (JSR) an absolute form. -/
inductive Instr where
  -- loads and stores (`41_load_store.md`)
  | ldaImm (b : Byte) | ldaZp0 (b : Byte) | ldaZpx (b : Byte) | ldaAbs (w : Addr) | ldaAbx (w : Addr) | ldaAby (w : Addr) | ldaIzx (b : Byte) | ldaIzy (b : Byte)
  | ldxImm (b : Byte) | ldxZp0 (b : Byte) | ldxZpy (b : Byte) | ldxAbs (w : Addr) | ldxAby (w : Addr)
  | ldyImm (b : Byte) | ldyZp0 (b : Byte) | ldyZpx (b : Byte) | ldyAbs (w : Addr) | ldyAbx (w : Addr)
  | staZp0 (b : Byte) | staZpx (b : Byte) | staAbs (w : Addr) | staAbx (w : Addr) | staAby (w : Addr) | staIzx (b : Byte) | staIzy (b : Byte)
  | stxZp0 (b : Byte) | stxZpy (b : Byte) | stxAbs (w : Addr)
  | styZp0 (b : Byte) | styZpx (b : Byte) | styAbs (w : Addr)
  -- arithmetic and compare (`42_arith_compare.md`)
  | adcImm (b : Byte) | adcZp0 (b : Byte) | adcZpx (b : Byte) | adcAbs (w : Addr) | adcAbx (w : Addr) | adcAby (w : Addr) | adcIzx (b : Byte) | adcIzy (b : Byte)
  | sbcImm (b : Byte) | sbcZp0 (b : Byte) | sbcZpx (b : Byte) | sbcAbs (w : Addr) | sbcAbx (w : Addr) | sbcAby (w : Addr) | sbcIzx (b : Byte) | sbcIzy (b : Byte)
  | cmpImm (b : Byte) | cmpZp0 (b : Byte) | cmpZpx (b : Byte) | cmpAbs (w : Addr) | cmpAbx (w : Addr) | cmpAby (w : Addr) | cmpIzx (b : Byte) | cmpIzy (b : Byte)
  | cpxImm (b : Byte) | cpxZp0 (b : Byte) | cpxAbs (w : Addr)
  | cpyImm (b : Byte) | cpyZp0 (b : Byte) | cpyAbs (w : Addr)
  -- logical, bit test, shift and rotate (`43_logic_shift.md`)
  | andImm (b : Byte) | andZp0 (b : Byte) | andZpx (b : Byte) | andAbs (w : Addr) | andAbx (w : Addr) | andAby (w : Addr) | andIzx (b : Byte) | andIzy (b : Byte)
  | oraImm (b : Byte) | oraZp0 (b : Byte) | oraZpx (b : Byte) | oraAbs (w : Addr) | oraAbx (w : Addr) | oraAby (w : Addr) | oraIzx (b : Byte) | oraIzy (b : Byte)
  | eorImm (b : Byte) | eorZp0 (b : Byte) | eorZpx (b : Byte) | eorAbs (w : Addr) | eorAbx (w : Addr) | eorAby (w : Addr) | eorIzx (b : Byte) | eorIzy (b : Byte)
  | bitZp0 (b : Byte) | bitAbs (w : Addr)
  | aslAcc | aslZp0 (b : Byte) | aslZpx (b : Byte) | aslAbs (w : Addr) | aslAbx (w : Addr)
  | lsrAcc | lsrZp0 (b : Byte) | lsrZpx (b : Byte) | lsrAbs (w : Addr) | lsrAbx (w : Addr)
  | rolAcc | rolZp0 (b : Byte) | rolZpx (b : Byte) | rolAbs (w : Addr) | rolAbx (w : Addr)
  | rorAcc | rorZp0 (b : Byte) | rorZpx (b : Byte) | rorAbs (w : Addr) | rorAbx (w : Addr)
  -- increment, decrement, transfer and flags (`44_incdec_transfer_flags.md`)
  | incZp0 (b : Byte) | incZpx (b : Byte) | incAbs (w : Addr) | incAbx (w : Addr)
  | decZp0 (b : Byte) | decZpx (b : Byte) | decAbs (w : Addr) | decAbx (w : Addr)
  | inx
  | iny
  | dex
  | dey
  | tax
  | tay
  | txa
  | tya
  | tsx
  | txs
  | clc
  | sec
  | cli
  | sei
  | cld
  | sed
  | clv
  -- stack (`45_stack.md`)
  | pha
  | php
  | pla
  | plp
  -- branches, jumps, subroutines (`46_control.md`)
  | bcc (b : Byte)
  | bcs (b : Byte)
  | beq (b : Byte)
  | bne (b : Byte)
  | bmi (b : Byte)
  | bpl (b : Byte)
  | bvc (b : Byte)
  | bvs (b : Byte)
  | jmpAbs (w : Addr) | jmpInd (w : Addr)
  | jsr (w : Addr)
  | rts
  -- break, return from interrupt, no-operation (`47_system.md`)
  | brk
  | rti
  | nop
  /-- An undocumented opcode byte (`30_encoding.md` R64); `Instr.wf` asks that it is one. -/
  | illegal (op : Byte)
  deriving DecidableEq, Repr

end Sys2Proof
end

