-- ==== Sys2Proof/Decode.lean ====
section
/-! DEFINITION. Decoding and encoding (`30_encoding.md`). The decoder is the opcode map of R62, one
list of rows per high nibble, each row an opcode byte and how its operand bytes are assembled
(R58, R60); every byte not listed is the sentinel (R64). The encoder is written from the per-mnemonic
table of R62, as `Instr.row`. -/

namespace Sys2Proof

/-! ### Bytes and words (`00_scope.md` R9) -/

/-- The high byte of a 16-bit value, `a[15:8]`: its page number. -/
def hiByte (a : Addr) : Byte := a.extractLsb' 8 8

/-- The low byte of a 16-bit value, `a[7:0]`. -/
def loByte (a : Addr) : Byte := a.extractLsb' 0 8

/-- `hi:lo`, the 16-bit value with the given high and low byte (R9, R44). -/
def joinBytes (hi lo : Byte) : Addr := hi ++ lo

/-- `zext_16`: an 8-bit value as a 16-bit one, high byte 0 (R9). -/
def zext16 (b : Byte) : Addr := b.setWidth 16

/-- `sext_16`: an 8-bit value sign-extended to 16 bits (R9). -/
def sext16 (b : Byte) : Addr := b.signExtend 16

/-! ### Lengths (R57, R59) -/

/-- The number of operand bytes of each mode tag (R57). -/
def Mode.operandBytes : Mode → Nat
  | .IMP | .ACC => 0
  | .IMM | .ZP0 | .ZPX | .ZPY | .REL | .IZX | .IZY => 1
  | .ABS | .ABX | .ABY | .IND => 2

/-- The length in bytes of an instruction in each mode (R57, R58). -/
def Mode.length (m : Mode) : Nat := 1 + m.operandBytes

/-! ### The opcode table, read by instruction (R62, `opcode_table.json`) -/

/-- The table row of an instruction: its opcode byte, mnemonic, mode and base cycles. -/
def Instr.row : Instr → OpRow
  | .ldaImm _ => ⟨0xA9, ⟨.LDA, .IMM, 2⟩⟩
  | .ldaZp0 _ => ⟨0xA5, ⟨.LDA, .ZP0, 3⟩⟩
  | .ldaZpx _ => ⟨0xB5, ⟨.LDA, .ZPX, 4⟩⟩
  | .ldaAbs _ => ⟨0xAD, ⟨.LDA, .ABS, 4⟩⟩
  | .ldaAbx _ => ⟨0xBD, ⟨.LDA, .ABX, 4⟩⟩
  | .ldaAby _ => ⟨0xB9, ⟨.LDA, .ABY, 4⟩⟩
  | .ldaIzx _ => ⟨0xA1, ⟨.LDA, .IZX, 6⟩⟩
  | .ldaIzy _ => ⟨0xB1, ⟨.LDA, .IZY, 5⟩⟩
  | .ldxImm _ => ⟨0xA2, ⟨.LDX, .IMM, 2⟩⟩
  | .ldxZp0 _ => ⟨0xA6, ⟨.LDX, .ZP0, 3⟩⟩
  | .ldxZpy _ => ⟨0xB6, ⟨.LDX, .ZPY, 4⟩⟩
  | .ldxAbs _ => ⟨0xAE, ⟨.LDX, .ABS, 4⟩⟩
  | .ldxAby _ => ⟨0xBE, ⟨.LDX, .ABY, 4⟩⟩
  | .ldyImm _ => ⟨0xA0, ⟨.LDY, .IMM, 2⟩⟩
  | .ldyZp0 _ => ⟨0xA4, ⟨.LDY, .ZP0, 3⟩⟩
  | .ldyZpx _ => ⟨0xB4, ⟨.LDY, .ZPX, 4⟩⟩
  | .ldyAbs _ => ⟨0xAC, ⟨.LDY, .ABS, 4⟩⟩
  | .ldyAbx _ => ⟨0xBC, ⟨.LDY, .ABX, 4⟩⟩
  | .staZp0 _ => ⟨0x85, ⟨.STA, .ZP0, 3⟩⟩
  | .staZpx _ => ⟨0x95, ⟨.STA, .ZPX, 4⟩⟩
  | .staAbs _ => ⟨0x8D, ⟨.STA, .ABS, 4⟩⟩
  | .staAbx _ => ⟨0x9D, ⟨.STA, .ABX, 5⟩⟩
  | .staAby _ => ⟨0x99, ⟨.STA, .ABY, 5⟩⟩
  | .staIzx _ => ⟨0x81, ⟨.STA, .IZX, 6⟩⟩
  | .staIzy _ => ⟨0x91, ⟨.STA, .IZY, 6⟩⟩
  | .stxZp0 _ => ⟨0x86, ⟨.STX, .ZP0, 3⟩⟩
  | .stxZpy _ => ⟨0x96, ⟨.STX, .ZPY, 4⟩⟩
  | .stxAbs _ => ⟨0x8E, ⟨.STX, .ABS, 4⟩⟩
  | .styZp0 _ => ⟨0x84, ⟨.STY, .ZP0, 3⟩⟩
  | .styZpx _ => ⟨0x94, ⟨.STY, .ZPX, 4⟩⟩
  | .styAbs _ => ⟨0x8C, ⟨.STY, .ABS, 4⟩⟩
  | .adcImm _ => ⟨0x69, ⟨.ADC, .IMM, 2⟩⟩
  | .adcZp0 _ => ⟨0x65, ⟨.ADC, .ZP0, 3⟩⟩
  | .adcZpx _ => ⟨0x75, ⟨.ADC, .ZPX, 4⟩⟩
  | .adcAbs _ => ⟨0x6D, ⟨.ADC, .ABS, 4⟩⟩
  | .adcAbx _ => ⟨0x7D, ⟨.ADC, .ABX, 4⟩⟩
  | .adcAby _ => ⟨0x79, ⟨.ADC, .ABY, 4⟩⟩
  | .adcIzx _ => ⟨0x61, ⟨.ADC, .IZX, 6⟩⟩
  | .adcIzy _ => ⟨0x71, ⟨.ADC, .IZY, 5⟩⟩
  | .sbcImm _ => ⟨0xE9, ⟨.SBC, .IMM, 2⟩⟩
  | .sbcZp0 _ => ⟨0xE5, ⟨.SBC, .ZP0, 3⟩⟩
  | .sbcZpx _ => ⟨0xF5, ⟨.SBC, .ZPX, 4⟩⟩
  | .sbcAbs _ => ⟨0xED, ⟨.SBC, .ABS, 4⟩⟩
  | .sbcAbx _ => ⟨0xFD, ⟨.SBC, .ABX, 4⟩⟩
  | .sbcAby _ => ⟨0xF9, ⟨.SBC, .ABY, 4⟩⟩
  | .sbcIzx _ => ⟨0xE1, ⟨.SBC, .IZX, 6⟩⟩
  | .sbcIzy _ => ⟨0xF1, ⟨.SBC, .IZY, 5⟩⟩
  | .cmpImm _ => ⟨0xC9, ⟨.CMP, .IMM, 2⟩⟩
  | .cmpZp0 _ => ⟨0xC5, ⟨.CMP, .ZP0, 3⟩⟩
  | .cmpZpx _ => ⟨0xD5, ⟨.CMP, .ZPX, 4⟩⟩
  | .cmpAbs _ => ⟨0xCD, ⟨.CMP, .ABS, 4⟩⟩
  | .cmpAbx _ => ⟨0xDD, ⟨.CMP, .ABX, 4⟩⟩
  | .cmpAby _ => ⟨0xD9, ⟨.CMP, .ABY, 4⟩⟩
  | .cmpIzx _ => ⟨0xC1, ⟨.CMP, .IZX, 6⟩⟩
  | .cmpIzy _ => ⟨0xD1, ⟨.CMP, .IZY, 5⟩⟩
  | .cpxImm _ => ⟨0xE0, ⟨.CPX, .IMM, 2⟩⟩
  | .cpxZp0 _ => ⟨0xE4, ⟨.CPX, .ZP0, 3⟩⟩
  | .cpxAbs _ => ⟨0xEC, ⟨.CPX, .ABS, 4⟩⟩
  | .cpyImm _ => ⟨0xC0, ⟨.CPY, .IMM, 2⟩⟩
  | .cpyZp0 _ => ⟨0xC4, ⟨.CPY, .ZP0, 3⟩⟩
  | .cpyAbs _ => ⟨0xCC, ⟨.CPY, .ABS, 4⟩⟩
  | .andImm _ => ⟨0x29, ⟨.AND, .IMM, 2⟩⟩
  | .andZp0 _ => ⟨0x25, ⟨.AND, .ZP0, 3⟩⟩
  | .andZpx _ => ⟨0x35, ⟨.AND, .ZPX, 4⟩⟩
  | .andAbs _ => ⟨0x2D, ⟨.AND, .ABS, 4⟩⟩
  | .andAbx _ => ⟨0x3D, ⟨.AND, .ABX, 4⟩⟩
  | .andAby _ => ⟨0x39, ⟨.AND, .ABY, 4⟩⟩
  | .andIzx _ => ⟨0x21, ⟨.AND, .IZX, 6⟩⟩
  | .andIzy _ => ⟨0x31, ⟨.AND, .IZY, 5⟩⟩
  | .oraImm _ => ⟨0x09, ⟨.ORA, .IMM, 2⟩⟩
  | .oraZp0 _ => ⟨0x05, ⟨.ORA, .ZP0, 3⟩⟩
  | .oraZpx _ => ⟨0x15, ⟨.ORA, .ZPX, 4⟩⟩
  | .oraAbs _ => ⟨0x0D, ⟨.ORA, .ABS, 4⟩⟩
  | .oraAbx _ => ⟨0x1D, ⟨.ORA, .ABX, 4⟩⟩
  | .oraAby _ => ⟨0x19, ⟨.ORA, .ABY, 4⟩⟩
  | .oraIzx _ => ⟨0x01, ⟨.ORA, .IZX, 6⟩⟩
  | .oraIzy _ => ⟨0x11, ⟨.ORA, .IZY, 5⟩⟩
  | .eorImm _ => ⟨0x49, ⟨.EOR, .IMM, 2⟩⟩
  | .eorZp0 _ => ⟨0x45, ⟨.EOR, .ZP0, 3⟩⟩
  | .eorZpx _ => ⟨0x55, ⟨.EOR, .ZPX, 4⟩⟩
  | .eorAbs _ => ⟨0x4D, ⟨.EOR, .ABS, 4⟩⟩
  | .eorAbx _ => ⟨0x5D, ⟨.EOR, .ABX, 4⟩⟩
  | .eorAby _ => ⟨0x59, ⟨.EOR, .ABY, 4⟩⟩
  | .eorIzx _ => ⟨0x41, ⟨.EOR, .IZX, 6⟩⟩
  | .eorIzy _ => ⟨0x51, ⟨.EOR, .IZY, 5⟩⟩
  | .bitZp0 _ => ⟨0x24, ⟨.BIT, .ZP0, 3⟩⟩
  | .bitAbs _ => ⟨0x2C, ⟨.BIT, .ABS, 4⟩⟩
  | .aslAcc => ⟨0x0A, ⟨.ASL, .ACC, 2⟩⟩
  | .aslZp0 _ => ⟨0x06, ⟨.ASL, .ZP0, 5⟩⟩
  | .aslZpx _ => ⟨0x16, ⟨.ASL, .ZPX, 6⟩⟩
  | .aslAbs _ => ⟨0x0E, ⟨.ASL, .ABS, 6⟩⟩
  | .aslAbx _ => ⟨0x1E, ⟨.ASL, .ABX, 7⟩⟩
  | .lsrAcc => ⟨0x4A, ⟨.LSR, .ACC, 2⟩⟩
  | .lsrZp0 _ => ⟨0x46, ⟨.LSR, .ZP0, 5⟩⟩
  | .lsrZpx _ => ⟨0x56, ⟨.LSR, .ZPX, 6⟩⟩
  | .lsrAbs _ => ⟨0x4E, ⟨.LSR, .ABS, 6⟩⟩
  | .lsrAbx _ => ⟨0x5E, ⟨.LSR, .ABX, 7⟩⟩
  | .rolAcc => ⟨0x2A, ⟨.ROL, .ACC, 2⟩⟩
  | .rolZp0 _ => ⟨0x26, ⟨.ROL, .ZP0, 5⟩⟩
  | .rolZpx _ => ⟨0x36, ⟨.ROL, .ZPX, 6⟩⟩
  | .rolAbs _ => ⟨0x2E, ⟨.ROL, .ABS, 6⟩⟩
  | .rolAbx _ => ⟨0x3E, ⟨.ROL, .ABX, 7⟩⟩
  | .rorAcc => ⟨0x6A, ⟨.ROR, .ACC, 2⟩⟩
  | .rorZp0 _ => ⟨0x66, ⟨.ROR, .ZP0, 5⟩⟩
  | .rorZpx _ => ⟨0x76, ⟨.ROR, .ZPX, 6⟩⟩
  | .rorAbs _ => ⟨0x6E, ⟨.ROR, .ABS, 6⟩⟩
  | .rorAbx _ => ⟨0x7E, ⟨.ROR, .ABX, 7⟩⟩
  | .incZp0 _ => ⟨0xE6, ⟨.INC, .ZP0, 5⟩⟩
  | .incZpx _ => ⟨0xF6, ⟨.INC, .ZPX, 6⟩⟩
  | .incAbs _ => ⟨0xEE, ⟨.INC, .ABS, 6⟩⟩
  | .incAbx _ => ⟨0xFE, ⟨.INC, .ABX, 7⟩⟩
  | .decZp0 _ => ⟨0xC6, ⟨.DEC, .ZP0, 5⟩⟩
  | .decZpx _ => ⟨0xD6, ⟨.DEC, .ZPX, 6⟩⟩
  | .decAbs _ => ⟨0xCE, ⟨.DEC, .ABS, 6⟩⟩
  | .decAbx _ => ⟨0xDE, ⟨.DEC, .ABX, 7⟩⟩
  | .inx => ⟨0xE8, ⟨.INX, .IMP, 2⟩⟩
  | .iny => ⟨0xC8, ⟨.INY, .IMP, 2⟩⟩
  | .dex => ⟨0xCA, ⟨.DEX, .IMP, 2⟩⟩
  | .dey => ⟨0x88, ⟨.DEY, .IMP, 2⟩⟩
  | .tax => ⟨0xAA, ⟨.TAX, .IMP, 2⟩⟩
  | .tay => ⟨0xA8, ⟨.TAY, .IMP, 2⟩⟩
  | .txa => ⟨0x8A, ⟨.TXA, .IMP, 2⟩⟩
  | .tya => ⟨0x98, ⟨.TYA, .IMP, 2⟩⟩
  | .tsx => ⟨0xBA, ⟨.TSX, .IMP, 2⟩⟩
  | .txs => ⟨0x9A, ⟨.TXS, .IMP, 2⟩⟩
  | .clc => ⟨0x18, ⟨.CLC, .IMP, 2⟩⟩
  | .sec => ⟨0x38, ⟨.SEC, .IMP, 2⟩⟩
  | .cli => ⟨0x58, ⟨.CLI, .IMP, 2⟩⟩
  | .sei => ⟨0x78, ⟨.SEI, .IMP, 2⟩⟩
  | .cld => ⟨0xD8, ⟨.CLD, .IMP, 2⟩⟩
  | .sed => ⟨0xF8, ⟨.SED, .IMP, 2⟩⟩
  | .clv => ⟨0xB8, ⟨.CLV, .IMP, 2⟩⟩
  | .pha => ⟨0x48, ⟨.PHA, .IMP, 3⟩⟩
  | .php => ⟨0x08, ⟨.PHP, .IMP, 3⟩⟩
  | .pla => ⟨0x68, ⟨.PLA, .IMP, 4⟩⟩
  | .plp => ⟨0x28, ⟨.PLP, .IMP, 4⟩⟩
  | .bcc _ => ⟨0x90, ⟨.BCC, .REL, 2⟩⟩
  | .bcs _ => ⟨0xB0, ⟨.BCS, .REL, 2⟩⟩
  | .beq _ => ⟨0xF0, ⟨.BEQ, .REL, 2⟩⟩
  | .bne _ => ⟨0xD0, ⟨.BNE, .REL, 2⟩⟩
  | .bmi _ => ⟨0x30, ⟨.BMI, .REL, 2⟩⟩
  | .bpl _ => ⟨0x10, ⟨.BPL, .REL, 2⟩⟩
  | .bvc _ => ⟨0x50, ⟨.BVC, .REL, 2⟩⟩
  | .bvs _ => ⟨0x70, ⟨.BVS, .REL, 2⟩⟩
  | .jmpAbs _ => ⟨0x4C, ⟨.JMP, .ABS, 3⟩⟩
  | .jmpInd _ => ⟨0x6C, ⟨.JMP, .IND, 5⟩⟩
  | .jsr _ => ⟨0x20, ⟨.JSR, .ABS, 6⟩⟩
  | .rts => ⟨0x60, ⟨.RTS, .IMP, 6⟩⟩
  | .brk => ⟨0x00, ⟨.BRK, .IMP, 7⟩⟩
  | .rti => ⟨0x40, ⟨.RTI, .IMP, 6⟩⟩
  | .nop => ⟨0xEA, ⟨.NOP, .IMP, 2⟩⟩
  | .illegal op => ⟨op, ⟨.ILLEGAL, .IMP, 2⟩⟩

/-- The opcode-table entry of an instruction: the value `cur` takes when it is fetched (R61). -/
def Instr.entry (i : Instr) : OpEntry := i.row.entry

/-- The mnemonic of an instruction. -/
def Instr.mnemonic (i : Instr) : Mnemonic := i.entry.mnemonic

/-- The addressing mode of an instruction. -/
def Instr.mode (i : Instr) : Mode := i.entry.mode

/-- The length of an instruction in bytes (R59). -/
def Instr.length (i : Instr) : Nat := i.mode.length

/-- The operand of an instruction in its addressing mode (R60). -/
def Instr.operand : Instr → Operand
  | .aslAcc | .lsrAcc | .rolAcc | .rorAcc => .acc
  | .ldaImm b | .ldxImm b | .ldyImm b | .adcImm b | .sbcImm b | .cmpImm b | .cpxImm b |
    .cpyImm b | .andImm b | .oraImm b | .eorImm b => .imm b
  | .ldaZp0 b | .ldxZp0 b | .ldyZp0 b | .staZp0 b | .stxZp0 b | .styZp0 b | .adcZp0 b |
    .sbcZp0 b | .cmpZp0 b | .cpxZp0 b | .cpyZp0 b | .andZp0 b | .oraZp0 b | .eorZp0 b |
    .bitZp0 b | .aslZp0 b | .lsrZp0 b | .rolZp0 b | .rorZp0 b | .incZp0 b | .decZp0 b => .zp0 b
  | .ldaZpx b | .ldyZpx b | .staZpx b | .styZpx b | .adcZpx b | .sbcZpx b | .cmpZpx b |
    .andZpx b | .oraZpx b | .eorZpx b | .aslZpx b | .lsrZpx b | .rolZpx b | .rorZpx b |
    .incZpx b | .decZpx b => .zpx b
  | .ldxZpy b | .stxZpy b => .zpy b
  | .bcc b | .bcs b | .beq b | .bne b | .bmi b | .bpl b | .bvc b | .bvs b => .rel b
  | .ldaAbs w | .ldxAbs w | .ldyAbs w | .staAbs w | .stxAbs w | .styAbs w | .adcAbs w |
    .sbcAbs w | .cmpAbs w | .cpxAbs w | .cpyAbs w | .andAbs w | .oraAbs w | .eorAbs w |
    .bitAbs w | .aslAbs w | .lsrAbs w | .rolAbs w | .rorAbs w | .incAbs w | .decAbs w |
    .jmpAbs w | .jsr w => .abs w
  | .ldaAbx w | .ldyAbx w | .staAbx w | .adcAbx w | .sbcAbx w | .cmpAbx w | .andAbx w |
    .oraAbx w | .eorAbx w | .aslAbx w | .lsrAbx w | .rolAbx w | .rorAbx w | .incAbx w |
    .decAbx w => .abx w
  | .ldaAby w | .ldxAby w | .staAby w | .adcAby w | .sbcAby w | .cmpAby w | .andAby w |
    .oraAby w | .eorAby w => .aby w
  | .jmpInd w => .ind w
  | .ldaIzx b | .staIzx b | .adcIzx b | .sbcIzx b | .cmpIzx b | .andIzx b | .oraIzx b |
    .eorIzx b => .izx b
  | .ldaIzy b | .staIzy b | .adcIzy b | .sbcIzy b | .cmpIzy b | .andIzy b | .oraIzy b |
    .eorIzy b => .izy b
  | .inx | .iny | .dex | .dey | .tax | .tay | .txa | .tya | .tsx | .txs | .clc | .sec | .cli |
    .sei | .cld | .sed | .clv | .pha | .php | .pla | .plp | .rts | .brk | .rti | .nop |
    .illegal _ => .imp

/-- The operand bytes of an operand, in the order they follow the opcode (R58, R44). -/
def Operand.bytes : Operand → List Byte
  | .imp | .acc => []
  | .imm b | .zp0 b | .zpx b | .zpy b | .rel b | .izx b | .izy b => [b]
  | .abs w | .abx w | .aby w | .ind w => [loByte w, hiByte w]

/-- The mode tag of an operand. -/
def Operand.mode : Operand → Mode
  | .imp => .IMP | .acc => .ACC | .imm _ => .IMM | .zp0 _ => .ZP0 | .zpx _ => .ZPX
  | .zpy _ => .ZPY | .rel _ => .REL | .izx _ => .IZX | .izy _ => .IZY | .abs _ => .ABS
  | .abx _ => .ABX | .aby _ => .ABY | .ind _ => .IND

/-! ### Decoding: the opcode map (R62) -/

/-- What an opcode byte asks for: no operand byte, one, or two forming a word (R58). -/
inductive Shape where
  | one   (i : Instr)
  | two   (f : Byte → Instr)
  | three (f : Addr → Instr)

/-- The documented opcodes 0x00 to 0x0F (R62). -/
def opcodes0 : List (Nat × Shape) :=
  [(0x00, .one .brk), (0x01, .two .oraIzx), (0x05, .two .oraZp0), (0x06, .two .aslZp0),
   (0x08, .one .php), (0x09, .two .oraImm), (0x0A, .one .aslAcc), (0x0D, .three .oraAbs),
   (0x0E, .three .aslAbs)]

/-- The documented opcodes 0x10 to 0x1F (R62). -/
def opcodes1 : List (Nat × Shape) :=
  [(0x10, .two .bpl), (0x11, .two .oraIzy), (0x15, .two .oraZpx), (0x16, .two .aslZpx),
   (0x18, .one .clc), (0x19, .three .oraAby), (0x1D, .three .oraAbx), (0x1E, .three .aslAbx)]

/-- The documented opcodes 0x20 to 0x2F (R62). -/
def opcodes2 : List (Nat × Shape) :=
  [(0x20, .three .jsr), (0x21, .two .andIzx), (0x24, .two .bitZp0), (0x25, .two .andZp0),
   (0x26, .two .rolZp0), (0x28, .one .plp), (0x29, .two .andImm), (0x2A, .one .rolAcc),
   (0x2C, .three .bitAbs), (0x2D, .three .andAbs), (0x2E, .three .rolAbs)]

/-- The documented opcodes 0x30 to 0x3F (R62). -/
def opcodes3 : List (Nat × Shape) :=
  [(0x30, .two .bmi), (0x31, .two .andIzy), (0x35, .two .andZpx), (0x36, .two .rolZpx),
   (0x38, .one .sec), (0x39, .three .andAby), (0x3D, .three .andAbx), (0x3E, .three .rolAbx)]

/-- The documented opcodes 0x40 to 0x4F (R62). -/
def opcodes4 : List (Nat × Shape) :=
  [(0x40, .one .rti), (0x41, .two .eorIzx), (0x45, .two .eorZp0), (0x46, .two .lsrZp0),
   (0x48, .one .pha), (0x49, .two .eorImm), (0x4A, .one .lsrAcc), (0x4C, .three .jmpAbs),
   (0x4D, .three .eorAbs), (0x4E, .three .lsrAbs)]

/-- The documented opcodes 0x50 to 0x5F (R62). -/
def opcodes5 : List (Nat × Shape) :=
  [(0x50, .two .bvc), (0x51, .two .eorIzy), (0x55, .two .eorZpx), (0x56, .two .lsrZpx),
   (0x58, .one .cli), (0x59, .three .eorAby), (0x5D, .three .eorAbx), (0x5E, .three .lsrAbx)]

/-- The documented opcodes 0x60 to 0x6F (R62). -/
def opcodes6 : List (Nat × Shape) :=
  [(0x60, .one .rts), (0x61, .two .adcIzx), (0x65, .two .adcZp0), (0x66, .two .rorZp0),
   (0x68, .one .pla), (0x69, .two .adcImm), (0x6A, .one .rorAcc), (0x6C, .three .jmpInd),
   (0x6D, .three .adcAbs), (0x6E, .three .rorAbs)]

/-- The documented opcodes 0x70 to 0x7F (R62). -/
def opcodes7 : List (Nat × Shape) :=
  [(0x70, .two .bvs), (0x71, .two .adcIzy), (0x75, .two .adcZpx), (0x76, .two .rorZpx),
   (0x78, .one .sei), (0x79, .three .adcAby), (0x7D, .three .adcAbx), (0x7E, .three .rorAbx)]

/-- The documented opcodes 0x80 to 0x8F (R62). -/
def opcodes8 : List (Nat × Shape) :=
  [(0x81, .two .staIzx), (0x84, .two .styZp0), (0x85, .two .staZp0), (0x86, .two .stxZp0),
   (0x88, .one .dey), (0x8A, .one .txa), (0x8C, .three .styAbs), (0x8D, .three .staAbs),
   (0x8E, .three .stxAbs)]

/-- The documented opcodes 0x90 to 0x9F (R62). -/
def opcodes9 : List (Nat × Shape) :=
  [(0x90, .two .bcc), (0x91, .two .staIzy), (0x94, .two .styZpx), (0x95, .two .staZpx),
   (0x96, .two .stxZpy), (0x98, .one .tya), (0x99, .three .staAby), (0x9A, .one .txs),
   (0x9D, .three .staAbx)]

/-- The documented opcodes 0xA0 to 0xAF (R62). -/
def opcodesA : List (Nat × Shape) :=
  [(0xA0, .two .ldyImm), (0xA1, .two .ldaIzx), (0xA2, .two .ldxImm), (0xA4, .two .ldyZp0),
   (0xA5, .two .ldaZp0), (0xA6, .two .ldxZp0), (0xA8, .one .tay), (0xA9, .two .ldaImm),
   (0xAA, .one .tax), (0xAC, .three .ldyAbs), (0xAD, .three .ldaAbs), (0xAE, .three .ldxAbs)]

/-- The documented opcodes 0xB0 to 0xBF (R62). -/
def opcodesB : List (Nat × Shape) :=
  [(0xB0, .two .bcs), (0xB1, .two .ldaIzy), (0xB4, .two .ldyZpx), (0xB5, .two .ldaZpx),
   (0xB6, .two .ldxZpy), (0xB8, .one .clv), (0xB9, .three .ldaAby), (0xBA, .one .tsx),
   (0xBC, .three .ldyAbx), (0xBD, .three .ldaAbx), (0xBE, .three .ldxAby)]

/-- The documented opcodes 0xC0 to 0xCF (R62). -/
def opcodesC : List (Nat × Shape) :=
  [(0xC0, .two .cpyImm), (0xC1, .two .cmpIzx), (0xC4, .two .cpyZp0), (0xC5, .two .cmpZp0),
   (0xC6, .two .decZp0), (0xC8, .one .iny), (0xC9, .two .cmpImm), (0xCA, .one .dex),
   (0xCC, .three .cpyAbs), (0xCD, .three .cmpAbs), (0xCE, .three .decAbs)]

/-- The documented opcodes 0xD0 to 0xDF (R62). -/
def opcodesD : List (Nat × Shape) :=
  [(0xD0, .two .bne), (0xD1, .two .cmpIzy), (0xD5, .two .cmpZpx), (0xD6, .two .decZpx),
   (0xD8, .one .cld), (0xD9, .three .cmpAby), (0xDD, .three .cmpAbx), (0xDE, .three .decAbx)]

/-- The documented opcodes 0xE0 to 0xEF (R62). -/
def opcodesE : List (Nat × Shape) :=
  [(0xE0, .two .cpxImm), (0xE1, .two .sbcIzx), (0xE4, .two .cpxZp0), (0xE5, .two .sbcZp0),
   (0xE6, .two .incZp0), (0xE8, .one .inx), (0xE9, .two .sbcImm), (0xEA, .one .nop),
   (0xEC, .three .cpxAbs), (0xED, .three .sbcAbs), (0xEE, .three .incAbs)]

/-- The documented opcodes 0xF0 to 0xFF (R62). -/
def opcodesF : List (Nat × Shape) :=
  [(0xF0, .two .beq), (0xF1, .two .sbcIzy), (0xF5, .two .sbcZpx), (0xF6, .two .incZpx),
   (0xF8, .one .sed), (0xF9, .three .sbcAby), (0xFD, .three .sbcAbx), (0xFE, .three .incAbx)]

/-- The opcode map: the 151 documented bytes (R62). -/
def opcodeMap : List (Nat × Shape) :=
  opcodes0 ++ opcodes1 ++ opcodes2 ++ opcodes3 ++ opcodes4 ++ opcodes5 ++ opcodes6 ++ opcodes7 ++
  opcodes8 ++ opcodes9 ++ opcodesA ++ opcodesB ++ opcodesC ++ opcodesD ++ opcodesE ++ opcodesF

/-- The first row of an opcode map with the given opcode. -/
def findShape (n : Nat) : List (Nat × Shape) → Option Shape
  | []           => none
  | (k, sh) :: t => if k = n then some sh else findShape n t

/-- The shape of every opcode byte; a byte that is not in the map is the sentinel (R61, R64). -/
def shapeOf (op : Byte) : Shape := (findShape op.toNat opcodeMap).getD (.one (.illegal op))

/-- `Decode(op)` of R61: the entry of an opcode byte, whatever operand bytes follow it. -/
def opcodeEntry (op : Byte) : OpEntry :=
  match shapeOf op with
  | .one i   => i.entry
  | .two f   => (f 0).entry
  | .three f => (f 0).entry

/-- Why a list of bytes holds no whole instruction. No opcode byte is ever a reason (R61). -/
inductive DecodeReject where
  /-- There is no byte at all. -/
  | noOpcode
  /-- The opcode asks for more operand bytes than follow it. -/
  | missingOperand
  deriving DecidableEq, Repr

/-- The outcome of decoding: an instruction and the bytes after it, or a named rejection. -/
inductive Decoded where
  | ok (i : Instr) (rest : List Byte)
  | reject (why : DecodeReject)
  deriving DecidableEq, Repr

/-- Assembles the operand bytes an opcode's shape asks for, low byte first (R58, R60). -/
def Shape.fill : Shape → List Byte → Decoded
  | .one i,   rest            => .ok i rest
  | .two f,   b :: rest       => .ok (f b) rest
  | .three f, lo :: hi :: rest => .ok (f (joinBytes hi lo)) rest
  | .two _,   []              => .reject .missingOperand
  | .three _, [_]             => .reject .missingOperand
  | .three _, []              => .reject .missingOperand

/-- Decodes the instruction at the head of a list of bytes (R58, R61). -/
def decode : List Byte → Decoded
  | []         => .reject .noOpcode
  | op :: rest => (shapeOf op).fill rest

/-! ### Encoding -/

/-- The bytes of an instruction: the opcode, then its operand bytes, low byte first (R58). -/
def encode (i : Instr) : List Byte := i.row.opcode :: i.operand.bytes

/-! ### The host's numbering of an instruction's bits -/

/-- The first three bytes of the instruction whose low `nbits` bits are `w`, bit 0 the least
significant bit of the first byte; every bit above `nbits` is 0. -/
def layOut (nbits w : Nat) : List Byte :=
  let v := w % 2 ^ nbits
  [BitVec.ofNat 8 v, BitVec.ofNat 8 (v / 256), BitVec.ofNat 8 (v / 65536)]

/-- The instruction the decoder reads from a word numbered as `opcode_table.json` numbers it. -/
def decodeTableWord (nbits w : Nat) : Option Instr :=
  match decode (layOut nbits w) with
  | .ok i _   => some i
  | .reject _ => none

end Sys2Proof
end

