-- ==== Sys2Proof/Config.lean ====
section
/-! DEFINITION. What this hardware fixes once for all (`00_scope.md` R6, `20_memory.md` R49, "part of
the wire contract" and "not reconfigurable"), and the one free value: what a device on the host's bus
answers. The spec leaves no result of an instruction open. -/

namespace Sys2Proof.Machine

/-- One call of a bus callback (`20_memory.md` R41): its address and the byte moved. -/
inductive BusAccess where
  | read  (addr : Addr) (value : Byte)
  | write (addr : Addr) (value : Byte)
  deriving DecidableEq, Repr

end Sys2Proof.Machine

namespace Sys2Proof.Config

/-- The stack page starts here; SP is the low byte of the stack address (R18, R49). -/
def stackPage : Addr := 0x0100

/-- Address of the low byte of the NMI vector; the high byte is the next one (R49). -/
def nmiVector : Addr := 0xFFFA

/-- Address of the low byte of the reset vector (R49). -/
def resetVector : Addr := 0xFFFC

/-- Address of the low byte of the vector that IRQ and BRK share (R49, R166). -/
def irqVector : Addr := 0xFFFE

/-- The number of byte addresses (R42). -/
def memorySize : Nat := 65536

/-- What device number `id` of the host answers to a read, as a function of the accesses made before
it, newest first, and of the address: the read function of R43's parameter `Bus`
(`93_implementation_defined.md` U5). A free value: it has no body, so no claim can rest on what a
device answers (log 16). -/
opaque deviceRead (id : Nat) (history : List Machine.BusAccess) (address : Addr) : Byte

end Sys2Proof.Config
end

