-- ==== Sys2Proof/Machine/Memory.lean ====
section
/-! DEFINITION. The host's memory: 65,536 bytes (`20_memory.md` R42, R43), held as a list of address
and byte pairs in one canonical form: addresses strictly rising, all below 65,536, no entry equal to
what an unlisted address reads as. -/

namespace Sys2Proof.Machine

/-- Memory as plain data: `Host.Cell` pairs. -/
abbrev Memory := List Host.Cell

/-- What a byte that nothing has written reads as. DESIGN CHOICE (log 1): the memory is the host's
(`20_memory.md` R43) and the spec gives it no contents before the host loads it. -/
def unlistedByte : Byte := 0x00

/-- The byte at an address. -/
def Memory.read : Memory → Nat → Byte
  | [],          _ => unlistedByte
  | (k, v) :: t, a => if k = a then v else Memory.read t a

/-- Sets the byte at an address and keeps the canonical form: writing `unlistedByte` drops the
entry. -/
def Memory.write : Memory → Nat → Byte → Memory
  | [], a, v => if v = unlistedByte then [] else [(a, v)]
  | (k, u) :: t, a, v =>
    if a < k then
      if v = unlistedByte then (k, u) :: t else (a, v) :: (k, u) :: t
    else if a = k then
      if v = unlistedByte then t else (a, v) :: t
    else (k, u) :: Memory.write t a v

/-- The canonical form of the part of a memory whose addresses are `n` or more. -/
def Memory.wfFrom : Nat → Memory → Bool
  | _, []          => true
  | n, (k, v) :: t =>
    decide (n ≤ k) && decide (k < Config.memorySize) && v != unlistedByte && Memory.wfFrom (k + 1) t

/-- A memory is in canonical form. -/
def Memory.wf (m : Memory) : Bool := Memory.wfFrom 0 m

end Sys2Proof.Machine
end

