-- ==== Sys2Proof/Machine/Bus.lean ====
section
/-! DEFINITION. The parameter `Bus` (`00_scope.md` R7, `20_memory.md` R43, decision D1): what the
host's read callback returns and which writes take effect, as plain data. The spec gives the
parameter no form; the list of regions is the model's (log 16). -/

namespace Sys2Proof.Machine

/-- What serves the addresses of a region of the bus: the three kinds R43 names beside RAM. -/
inductive RegionKind where
  /-- Memory that reads and writes. -/
  | ram
  /-- Memory whose writes take no effect. -/
  | rom
  /-- The same bytes as those from `target` on, as the regions after this one serve them. -/
  | mirror (target : Addr)
  /-- Device number `id` of the host: reads give `Config.deviceRead`, writes are only logged. -/
  | device (id : Nat)
  deriving DecidableEq, Repr

/-- One region: `size` addresses from `base` on; it does not wrap past 0xFFFF. -/
structure Region where
  base : Addr
  size : Nat
  kind : RegionKind
  deriving DecidableEq, Repr

/-- A bus. The first region that covers an address serves it; an address that none covers is RAM. -/
abbrev Bus := List Region

/-- The default bus: plain RAM of 65,536 bytes (R43, D1). -/
def Bus.ram : Bus := []

/-- What serves one address: a cell of the host's memory, or a device at an address. -/
inductive Place where
  | ram    (cell : Addr)
  | rom    (cell : Addr)
  | device (id : Nat) (address : Addr)
  deriving DecidableEq, Repr

/-- An address lies in a region. -/
def Region.covers (r : Region) (a : Addr) : Bool :=
  decide (r.base.toNat ≤ a.toNat) && decide (a.toNat < r.base.toNat + r.size)

/-- What serves an address. -/
def Bus.place : Bus → Addr → Place
  | [],     a => .ram a
  | r :: t, a =>
    if r.covers a then
      match r.kind with
      | .ram           => .ram a
      | .rom           => .rom a
      | .mirror target => Bus.place t (target + (a - r.base))
      | .device id     => .device id a
    else Bus.place t a

/-- Some region of the bus is a device, so that a read may depend on the accesses before it. -/
def Bus.hasDevice : Bus → Bool
  | []     => false
  | r :: t => (match r.kind with | .device _ => true | _ => false) || Bus.hasDevice t

/-- What the read callback returns at an address (R41, R43), given the memory and the accesses made
before, newest first. -/
def Bus.reply (b : Bus) (m : Memory) (history : List BusAccess) (a : Addr) : Byte :=
  match b.place a with
  | .ram c | .rom c => m.read c.toNat
  | .device id x    => Config.deviceRead id history x

/-- What the write callback does to the memory (R41, R43): only RAM takes the byte. -/
def Bus.store (b : Bus) (m : Memory) (a : Addr) (v : Byte) : Memory :=
  match b.place a with
  | .ram c                => m.write c.toNat v
  | .rom _ | .device _ _  => m

end Sys2Proof.Machine
end

