-- ==== Sys2Proof/Machine/State.lean ====
section
/-! DEFINITION. The state of the machine (`10_state.md` R13), what a host call hands back, and the
reasons a host call can be refused. -/

namespace Sys2Proof.Machine

/-- The flags of the status register P, named as in `10_state.md` R19. -/
inductive Flag where
  | N | V | U | B | D | I | Z | C
  deriving DecidableEq, Repr

/-- The operand value of a trace snapshot (`48_step_machine.md` R153): nothing for IMP and ACC, the
immediate byte for IMM, a 16-bit value for every other mode. -/
inductive OperandValue where
  | none
  | byte (v : Byte)
  | word (v : Addr)
  deriving DecidableEq, Repr

/-- The trace snapshot `step()` returns on a fetch call with trace mode on (R153). -/
structure TraceSnapshot where
  address  : Addr
  bytes    : List Byte
  mnemonic : Mnemonic
  mode     : Mode
  operand  : OperandValue
  a        : Byte
  x        : Byte
  y        : Byte
  sp       : Byte
  p        : Byte
  deriving DecidableEq, Repr

/-- The record of `10_state.md` R13, the host's memory, and the two construction arguments `Bus` and
`trace_enabled` (`00_scope.md` R7); then three fields of the model's own (log 7): what the last host
call returned, what it did on the bus, and what the calls before it did there. -/
structure State where
  /-- Accumulator (R14). -/
  a            : Byte
  /-- Index register X (R14). -/
  x            : Byte
  /-- Index register Y (R14). -/
  y            : Byte
  /-- Stack pointer, an index into page 1 (R18). -/
  sp           : Byte
  /-- Program counter (R16). -/
  pc           : Addr
  /-- Status register, eight stored bits (R19). -/
  p            : Byte
  /-- Scratch register the resolver sets (R31). -/
  ea           : Addr
  /-- The opcode-table entry of the last instruction fetched (R32). -/
  cur          : OpEntry
  /-- Cycles left of the instruction in flight (R33); after `step()` also its result
  `cycles_remaining` (R147). -/
  pending      : Nat
  /-- True once a reset has been performed (R35). -/
  powered      : Bool
  /-- The construction argument `trace_enabled` (R37, D30); nothing changes it (log 6). -/
  traceEnabled : Bool
  /-- The parameter `Bus` (R7, `20_memory.md` R43; log 16); nothing changes it. -/
  bus          : Bus
  /-- The host's memory: the cells behind the bus (R43). -/
  mem          : Memory
  /-- The model's own: the `trace` result of the last host call (R147, R153; log 7). -/
  trace        : Option TraceSnapshot
  /-- The model's own: the bus accesses of the last host call, oldest first (R47; log 7). -/
  accesses     : List BusAccess
  /-- The model's own: the accesses of the calls before the last one, newest first; kept only for a bus
  with a device, whose answers may depend on them (R43; log 16). -/
  past         : List BusAccess
  deriving DecidableEq, Repr

/-- The core raises no exception and no bus access can fail (`60_exceptions.md` R156), so there is
no reason for a fault and no constructor: safe, since no claim can rest on a stop. -/
inductive Fault
  deriving DecidableEq, Repr

/-- Why a host call has no meaning. -/
inductive Refusal where
  /-- Raised by an arm of `exec` whose instruction has no meaning yet; there is none such. Safe. -/
  | notModelled (mnemonic : String)
  /-- Raised by `step`, `irq` and `nmi` while `powered` is false: the spec refuses the call
  (`10_state.md` R35, D12; log 12). Safe: the model allows nothing there. -/
  | notPowered
  /-- Raised by `irq` and `nmi` when `pending` is not 0: the spec refuses the call
  (`60_exceptions.md` R159, D9; log 15). Safe: the model allows nothing there. -/
  | notAtBoundary
  deriving DecidableEq, Repr

/-- What a call of the machine answers. -/
abbrev Outcome := Host.Outcome State Fault Refusal

/-- The machine right after reset (`10_state.md` R40, `70_reset_and_hazards.md` R172), on the default
bus (R43, D1; log 2) over a memory in which the host has written nothing: the reset vector then
reads `unlistedByte` twice, so `pc` is 0x0000 (log 3). `ea` and `cur`, to which the spec gives no
value here, hold named ones (log 4, log 5), and trace mode is on (log 6). -/
def State.reset : State where
  a            := 0x00
  x            := 0x00
  y            := 0x00
  sp           := 0xFF
  pc           := 0x0000
  p            := 0x24
  ea           := 0x0000
  cur          := ⟨.ILLEGAL, .IMP, 2⟩
  pending      := 8
  powered      := true
  traceEnabled := true
  bus          := Bus.ram
  mem          := []
  trace        := none
  accesses     := [.read 0xFFFC 0x00, .read 0xFFFD 0x00]
  past         := []

end Sys2Proof.Machine
end

