-- ==== Sys2Proof/Machine/Flags.lean ====
section
/-! DEFINITION. The status register's bits and every flag and arithmetic computation of the spec, as
functions of bytes: `10_state.md` R19 to R30, `42_arith_compare.md` R89 to R94,
`43_logic_shift.md` R103 to R106. -/

namespace Sys2Proof.Machine

/-! ### The bits of P -/

/-- The bit of each flag (R19). -/
def Flag.bit : Flag → Nat
  | .N => 7 | .V => 6 | .U => 5 | .B => 4 | .D => 3 | .I => 2 | .Z => 1 | .C => 0

/-- Reads a flag of a status byte. -/
def getFlag (p : Byte) (f : Flag) : Bool := p.getLsbD f.bit

/-- A status byte with one flag replaced and every other bit kept. -/
def putFlag (p : Byte) (f : Flag) (v : Bool) : Byte :=
  bif v then p ||| (1#8 <<< f.bit) else p &&& ~~~(1#8 <<< f.bit)

/-- `SetNZ(r)` (R28): Z is whether the 8-bit result is 0, N is its bit 7. -/
def setNZ (p r : Byte) : Byte := putFlag (putFlag p .Z (r == 0)) .N r.msb

/-- `PushedP(b)` (R29): the status byte a push writes, with U forced to 1 and B to `b`. -/
def pushedP (p : Byte) (b : Bool) : Byte := (p &&& 0xCF) ||| 0x20 ||| (bif b then 0x10 else 0x00)

/-- `LoadP(v)` (R30, D3): a pulled status byte, with U forced to 1. -/
def loadP (v : Byte) : Byte := v ||| 0x20

/-! ### Addition and subtraction -/

/-- What an 8-bit addition gives: the masked sum, the carry out, the signed overflow. -/
structure BinarySum where
  result   : Byte
  carry    : Bool
  overflow : Bool
  deriving DecidableEq, Repr

/-- `AddBinary(a, m, c)` (R89): the exact sum, narrowed; V by the sign-overflow rule. -/
def addBinary (a m : Byte) (c : Bool) : BinarySum :=
  let s := a.toNat + m.toNat + c.toNat
  let r := BitVec.ofNat 8 s
  { result   := r
    carry    := decide (s > 0xFF)
    overflow := ((~~~(a ^^^ m)) &&& (a ^^^ r) &&& 0x80) != 0 }

/-- A nibble sum with the decimal correction of R90: more than 9 gains 6. -/
def adjustNibble (n : Nat) : Nat := if n > 9 then n + 6 else n

/-- `AdcDecimal(a, m, c)` (R90): the decimal sum and the decimal carry. -/
def adcDecimal (a m : Byte) (c : Bool) : Byte × Bool :=
  let lo := adjustNibble (a.toNat % 16 + m.toNat % 16 + c.toNat)
  let hc := if lo > 0x0F then 1 else 0
  let hi := adjustNibble (a.toNat / 16 + m.toNat / 16 + hc)
  (BitVec.ofNat 8 (hi % 16 * 16 + lo % 16), decide (hi > 0x0F))

/-- `SbcDecimal(a, m, c)` (R91): the decimal difference `a − m − (1 − c)`. -/
def sbcDecimal (a m : Byte) (c : Bool) : Byte :=
  let lo : Int := (a.toNat % 16 : Nat) - (m.toNat % 16 : Nat) - (1 - (c.toNat : Int))
  let hi : Int := (a.toNat / 16 : Nat) - (m.toNat / 16 : Nat)
  let lo' := if lo < 0 then lo - 6 else lo
  let hi' := if lo < 0 then hi - 1 else hi
  let hi'' := if hi' < 0 then hi' - 6 else hi'
  BitVec.ofNat 8 ((hi'' % 16).toNat * 16 + (lo' % 16).toNat)

/-- What ADC and SBC leave: the accumulator and the status register. -/
structure AluResult where
  a : Byte
  p : Byte
  deriving DecidableEq, Repr

/-- ADC on bytes (R92): in decimal mode A and C are decimal; V, N and Z are always those of the
binary sum. -/
def adcFlags (a m p : Byte) : AluResult :=
  let c := getFlag p .C
  let b := addBinary a m c
  let d := adcDecimal a m c
  let dec := getFlag p .D
  { a := bif dec then d.1 else b.result
    p := setNZ (putFlag (putFlag p .C (bif dec then d.2 else b.carry)) .V b.overflow) b.result }

/-- SBC on bytes (R93): the binary sum with the complemented operand gives all four flags; in decimal
mode A is the decimal difference. -/
def sbcFlags (a m p : Byte) : AluResult :=
  let c := getFlag p .C
  let b := addBinary a (m ^^^ 0xFF) c
  { a := bif getFlag p .D then sbcDecimal a m c else b.result
    p := setNZ (putFlag (putFlag p .C b.carry) .V b.overflow) b.result }

/-- `Compare(R, M)` (R94): C is the unsigned `R ≥ M`, Z is `R = M`, N is bit 7 of the difference. -/
def compareFlags (r m p : Byte) : Byte :=
  putFlag (putFlag (putFlag p .C (decide (m.toNat ≤ r.toNat))) .Z (r == m)) .N (r - m).msb

/-- BIT (R101): Z from `A & M`, N and V from bits 7 and 6 of the memory byte. -/
def bitFlags (a m p : Byte) : Byte :=
  putFlag (putFlag (putFlag p .Z ((a &&& m) == 0)) .N (m.getLsbD 7)) .V (m.getLsbD 6)

/-! ### Shifts, rotates, increment, decrement: the new byte and the new status -/

/-- What a read-modify-write operation makes of a byte: the byte written back and P. -/
structure ModifyResult where
  value : Byte
  p     : Byte
  deriving DecidableEq, Repr

/-- ASL (R103): bit 7 goes to C, 0 enters bit 0. -/
def aslByte (v p : Byte) : ModifyResult :=
  let r := v <<< 1
  ⟨r, setNZ (putFlag p .C (v.getLsbD 7)) r⟩

/-- LSR (R104): bit 0 goes to C, 0 enters bit 7. -/
def lsrByte (v p : Byte) : ModifyResult :=
  let r := v >>> 1
  ⟨r, setNZ (putFlag p .C (v.getLsbD 0)) r⟩

/-- ROL (R105): bit 7 goes to C, the prior carry enters bit 0. -/
def rolByte (v p : Byte) : ModifyResult :=
  let r := (v <<< 1) ||| (bif getFlag p .C then 0x01 else 0x00)
  ⟨r, setNZ (putFlag p .C (v.getLsbD 7)) r⟩

/-- ROR (R106): bit 0 goes to C, the prior carry enters bit 7. -/
def rorByte (v p : Byte) : ModifyResult :=
  let r := (bif getFlag p .C then 0x80 else 0x00) ||| (v >>> 1)
  ⟨r, setNZ (putFlag p .C (v.getLsbD 0)) r⟩

/-- INC (R107): adds 1 modulo 256; C and V are kept. -/
def incByte (v p : Byte) : ModifyResult := ⟨v + 1, setNZ p (v + 1)⟩

/-- DEC (R108): subtracts 1 modulo 256; C and V are kept. -/
def decByte (v p : Byte) : ModifyResult := ⟨v - 1, setNZ p (v - 1)⟩

end Sys2Proof.Machine
end

