-- ==== Sys2Proof/Machine/Ops.lean ====
section
/-! DEFINITION. The named operations over registers, flags, the bus and the stack, interrupt entry
and the return from it. Every bus access of the machine goes through `memRead` and `memWrite`, which
record it in `accesses` (`20_memory.md` R47). -/

namespace Sys2Proof.Machine

/-! ### Registers and flags -/

/-- Writes A (R14). -/
def State.setA (s : State) (v : Byte) : State := { s with a := v }
/-- Writes X (R14). -/
def State.setX (s : State) (v : Byte) : State := { s with x := v }
/-- Writes Y (R14). -/
def State.setY (s : State) (v : Byte) : State := { s with y := v }
/-- Writes SP (R18). -/
def State.setSp (s : State) (v : Byte) : State := { s with sp := v }
/-- Writes PC (R16). -/
def State.setPc (s : State) (v : Addr) : State := { s with pc := v }
/-- Writes P (R19). -/
def State.setP (s : State) (v : Byte) : State := { s with p := v }
/-- Writes `pending` (R33). -/
def State.setPending (s : State) (n : Nat) : State := { s with pending := n }

/-- Reads a flag of P (R19). -/
def State.flag (s : State) (f : Flag) : Bool := getFlag s.p f

/-- Writes one flag of P. -/
def State.setFlag (s : State) (f : Flag) (v : Bool) : State := s.setP (putFlag s.p f v)

/-- `SetNZ(r)` on the state (R28). -/
def State.setNZ (s : State) (r : Byte) : State := s.setP (Machine.setNZ s.p r)

/-! ### The bus (R41, R43, R45) -/

/-- The accesses made so far, newest first: what a device's answer may depend on (R43). On a bus
without a device the calls before the last one are not kept (log 16). -/
def State.history (s : State) : List BusAccess := s.accesses.reverse ++ s.past

/-- The byte a read of an address returns now. -/
def State.byteAt (s : State) (a : Addr) : Byte := s.bus.reply s.mem s.history a

/-- Records one read. -/
def State.noteRead (s : State) (a : Addr) : State :=
  { s with accesses := s.accesses ++ [.read a (s.byteAt a)] }

/-- Records reads of the given addresses, in order: each sees the ones before it. -/
def State.noteReads (s : State) (as : List Addr) : State := as.foldl State.noteRead s

/-- The word whose low byte is at `alo` and whose high byte is at `ahi`, the low byte read first
(R45). -/
def State.wordAt (s : State) (alo ahi : Addr) : Addr :=
  joinBytes ((s.noteRead alo).byteAt ahi) (s.byteAt alo)

/-- `MemRead(a)` (R10, R43): one call of the read callback. -/
def memRead (a : Addr) (s : State) : Byte × State := (s.byteAt a, s.noteRead a)

/-- `MemWrite(a, v)` (R10, R43): one call of the write callback. -/
def memWrite (a : Addr) (v : Byte) (s : State) : State :=
  { s with mem := s.bus.store s.mem a v, accesses := s.accesses ++ [.write a v] }

/-- `Read16(alo, ahi)` (R45): the low byte is read before the high byte. -/
def read16 (alo ahi : Addr) (s : State) : Addr × State :=
  (s.wordAt alo ahi, s.noteReads [alo, ahi])

/-! ### The stack (R18, R50, R51) -/

/-- The address SP stands for: page 1, never another (R18). -/
def stackAddr (sp : Byte) : Addr := Config.stackPage ||| zext16 sp

/-- `Push(v)` (R50): writes, then decrements SP, wrapping. -/
def push (v : Byte) (s : State) : State := (memWrite (stackAddr s.sp) v s).setSp (s.sp - 1)

/-- `Pull()` (R51): increments SP, wrapping, then reads. -/
def pull (s : State) : Byte × State := memRead (stackAddr (s.sp + 1)) (s.setSp (s.sp + 1))

/-- Pushes a word, high byte first (R44). -/
def pushWord (w : Addr) (s : State) : State := push (loByte w) (push (hiByte w) s)

/-- Pulls a word, low byte first (R44). -/
def pullWord (s : State) : Addr × State :=
  let lo := pull s
  let hi := pull lo.2
  (joinBytes hi.1 lo.1, hi.2)

/-! ### Entry through a vector and the return from it -/

/-- `Enter(b, vec)` (`60_exceptions.md` R158), shared by BRK, IRQ and NMI: pushes PC and the status
byte with B as `b`, sets I and U, and loads PC from the vector. A, X, Y, B and D are kept. -/
def enter (b : Bool) (vec : Addr) (s : State) : State :=
  let s₁ := pushWord s.pc s
  let s₂ := push (pushedP s₁.p b) s₁
  let s₃ := (s₂.setFlag .I true).setFlag .U true
  let v := read16 vec (vec + 1) s₃
  v.2.setPc v.1

/-- The return from an interrupt (`47_system.md` R144, `60_exceptions.md` R164): pulls P by `LoadP`,
then PC low and high, with no adjustment. -/
def returnFromInterrupt (s : State) : State :=
  let p := pull s
  let w := pullWord (p.2.setP (loadP p.1))
  w.2.setPc w.1

end Sys2Proof.Machine
end

