-- ==== Sys2Proof/Machine/Operands.lean ====
section
/-! DEFINITION. The addressing-mode resolver (`40_addressing.md`), the page penalty, and the shared
skeletons of the instruction semantics (`00_scope.md` R12, `48_step_machine.md` R147 to R149): resolve,
run the semantics, charge the cycles.

`exec i s` runs `i` as the instruction at `s.pc`: PC still holds the address of the opcode byte, and
`i` carries the operand bytes that follow it (log 9). The reads of those bytes are the fetch's
(`Machine/Fetch.lean`); everything after them happens here. -/

namespace Sys2Proof.Machine

/-! ### The resolver -/

/-- The address after `w` within `w`'s page: the JMP-indirect wrap (R76). -/
def nextInPage (w : Addr) : Addr := joinBytes (hiByte w) (loByte w + 1)

/-- The word at a zero-page pointer, whose high byte also stays in page 0 (R77, R78). -/
def State.zeroPageWord (s : State) (t : Byte) : Addr := s.wordAt (zext16 t) (zext16 (t + 1))

/-- What the resolver leaves in `ea`, for an instruction whose opcode byte is at `s.pc` (R68 to R79).
IMP and ACC leave `ea` alone; for REL it is the offset, not an address. -/
def effectiveAddress (o : Operand) (s : State) : Addr :=
  match o with
  | .imp   => s.ea
  | .acc   => s.ea
  | .imm _ => s.pc + 1
  | .zp0 b => zext16 b
  | .zpx b => zext16 (b + s.x)
  | .zpy b => zext16 (b + s.y)
  | .rel b => sext16 b
  | .abs w => w
  | .abx w => w + zext16 s.x
  | .aby w => w + zext16 s.y
  | .ind w => s.wordAt w (nextInPage w)
  | .izx b => s.zeroPageWord (b + s.x)
  | .izy b => s.zeroPageWord b + zext16 s.y

/-- The pointer bytes the resolver reads after the operand bytes, in order (R81). -/
def pointerReads (o : Operand) (s : State) : List Addr :=
  match o with
  | .ind w => [w, nextInPage w]
  | .izx b => [zext16 (b + s.x), zext16 (b + s.x + 1)]
  | .izy b => [zext16 b, zext16 (b + 1)]
  | .imp | .acc | .imm _ | .zp0 _ | .zpx _ | .zpy _ | .rel _ | .abs _ | .abx _ | .aby _ => []

/-- Whether indexing changed the high byte of the address (R74, R75, R78); only these modes can. -/
def pageCrossed (o : Operand) (s : State) : Bool :=
  match o with
  | .abx w => hiByte (w + zext16 s.x) != hiByte w
  | .aby w => hiByte (w + zext16 s.y) != hiByte w
  | .izy b => hiByte (s.zeroPageWord b + zext16 s.y) != hiByte (s.zeroPageWord b)
  | .imp | .acc | .imm _ | .zp0 _ | .zpx _ | .zpy _ | .rel _ | .abs _ | .ind _ | .izx _ => false

/-- The nine mnemonics that pay for a page crossing (R80). -/
def paysPagePenalty (m : Mnemonic) : Bool :=
  [Mnemonic.ADC, .AND, .CMP, .EOR, .LDA, .LDX, .LDY, .ORA, .SBC].contains m

/-- `PagePenalty(crossed, m)` (R80). -/
def pagePenalty (crossed : Bool) (m : Mnemonic) : Nat := if crossed && paysPagePenalty m then 1 else 0

/-- The resolver's result for an instruction: 0 or 1 extra cycles (R66). -/
def resolverExtra (i : Instr) (s : State) : Nat := pagePenalty (pageCrossed i.operand s) i.mnemonic

/-- The state the semantics see (R17, R147): `cur` is the decoded entry, PC the address of the next
sequential instruction, `ea` resolved, and the pointer reads made. -/
def resolve (i : Instr) (s : State) : State :=
  { s.noteReads (pointerReads i.operand s) with
    pc  := s.pc + BitVec.ofNat 16 i.length
    ea  := effectiveAddress i.operand s
    cur := i.entry }

/-! ### The skeletons -/

/-- Ends an instruction: `pending` is its base cycles and the extra ones (R147, R149). -/
def complete (i : Instr) (extra : Nat) (s : State) : Outcome :=
  .next (s.setPending (i.entry.baseCycles + extra))

/-- An instruction whose semantics are `f`, with no extra cycles of its own. -/
def runPlain (i : Instr) (f : State → State) (s : State) : Outcome :=
  complete i (resolverExtra i s) (f (resolve i s))

/-- `Operand()` (R67). The immediate byte is the instruction's own operand byte, which the fetch has
read at `ea` (R60, R69; log 9); every other mode reads memory at `ea` once. -/
def operandByte (i : Instr) (s : State) : Byte × State :=
  match i.operand with
  | .imm b => (b, s)
  | .imp | .acc | .zp0 _ | .zpx _ | .zpy _ | .rel _ | .izx _ | .izy _ | .abs _ | .abx _ | .aby _
  | .ind _ => memRead s.ea s

/-- An instruction that reads a memory operand and works on registers and flags. -/
def runRead (i : Instr) (f : Byte → State → State) (s : State) : Outcome :=
  runPlain i (fun r => let m := operandByte i r; f m.1 m.2) s

/-- A store of a register's byte to `ea`; the destination is not read (R85, R47). -/
def runStore (i : Instr) (reg : State → Byte) (s : State) : Outcome :=
  runPlain i (fun r => memWrite r.ea (reg r) r) s

/-- A read-modify-write (R48, R102): on A in accumulator mode, else one read and one write at `ea`. -/
def modify (o : Operand) (f : Byte → Byte → ModifyResult) (s : State) : State :=
  match o with
  | .acc | .imp =>
    let q := f s.a s.p
    (s.setA q.value).setP q.p
  | .imm _ | .zp0 _ | .zpx _ | .zpy _ | .rel _ | .izx _ | .izy _ | .abs _ | .abx _ | .aby _
  | .ind _ =>
    let m := memRead s.ea s
    let q := f m.1 s.p
    (memWrite s.ea q.value m.2).setP q.p

/-- A read-modify-write instruction. -/
def runModify (i : Instr) (f : Byte → Byte → ModifyResult) (s : State) : Outcome :=
  runPlain i (modify i.operand f) s

/-- The extra cycles of a taken branch from `old` to `new`: 1, and 1 more into another page (R130). -/
def branchExtra (old new : Addr) : Nat := if hiByte new != hiByte old then 2 else 1

/-- `Branch(cond)` (R130): a taken branch adds the offset in `ea` to the address of the next
instruction. -/
def runBranch (i : Instr) (cond : State → Bool) (s : State) : Outcome :=
  let r := resolve i s
  let target := r.pc + r.ea
  bif cond r then complete i (branchExtra r.pc target) (r.setPc target) else complete i 0 r

end Sys2Proof.Machine
end

