-- ==== Sys2Proof/Machine/Arith.lean ====
section
/-! DEFINITION. One meaning for each instruction of a family:
arithmetic and compare (`42_arith_compare.md`). -/

namespace Sys2Proof.Machine

/-- ADC (R92), binary or decimal as D says. -/
def addToA (m : Byte) (s : State) : State := let q := adcFlags s.a m s.p; (s.setA q.a).setP q.p
/-- SBC (R93), binary or decimal as D says. -/
def subFromA (m : Byte) (s : State) : State := let q := sbcFlags s.a m s.p; (s.setA q.a).setP q.p
/-- `Compare(R, M)` (R94): the register is not written, and D has no effect. -/
def compareWith (reg : State → Byte) (m : Byte) (s : State) : State :=
  s.setP (compareFlags (reg s) m s.p)

/-- ADC #nn, 0x69 (R92). -/
def execAdcImm (b : Byte) (s : State) : Outcome := runRead (.adcImm b) addToA s
/-- ADC zero page, 0x65 (R92). -/
def execAdcZp0 (b : Byte) (s : State) : Outcome := runRead (.adcZp0 b) addToA s
/-- ADC zero page,X, 0x75 (R92). -/
def execAdcZpx (b : Byte) (s : State) : Outcome := runRead (.adcZpx b) addToA s
/-- ADC absolute, 0x6D (R92). -/
def execAdcAbs (w : Addr) (s : State) : Outcome := runRead (.adcAbs w) addToA s
/-- ADC absolute,X, 0x7D (R92). -/
def execAdcAbx (w : Addr) (s : State) : Outcome := runRead (.adcAbx w) addToA s
/-- ADC absolute,Y, 0x79 (R92). -/
def execAdcAby (w : Addr) (s : State) : Outcome := runRead (.adcAby w) addToA s
/-- ADC (nn,X), 0x61 (R92). -/
def execAdcIzx (b : Byte) (s : State) : Outcome := runRead (.adcIzx b) addToA s
/-- ADC (nn),Y, 0x71 (R92). -/
def execAdcIzy (b : Byte) (s : State) : Outcome := runRead (.adcIzy b) addToA s

/-- SBC #nn, 0xE9 (R93). -/
def execSbcImm (b : Byte) (s : State) : Outcome := runRead (.sbcImm b) subFromA s
/-- SBC zero page, 0xE5 (R93). -/
def execSbcZp0 (b : Byte) (s : State) : Outcome := runRead (.sbcZp0 b) subFromA s
/-- SBC zero page,X, 0xF5 (R93). -/
def execSbcZpx (b : Byte) (s : State) : Outcome := runRead (.sbcZpx b) subFromA s
/-- SBC absolute, 0xED (R93). -/
def execSbcAbs (w : Addr) (s : State) : Outcome := runRead (.sbcAbs w) subFromA s
/-- SBC absolute,X, 0xFD (R93). -/
def execSbcAbx (w : Addr) (s : State) : Outcome := runRead (.sbcAbx w) subFromA s
/-- SBC absolute,Y, 0xF9 (R93). -/
def execSbcAby (w : Addr) (s : State) : Outcome := runRead (.sbcAby w) subFromA s
/-- SBC (nn,X), 0xE1 (R93). -/
def execSbcIzx (b : Byte) (s : State) : Outcome := runRead (.sbcIzx b) subFromA s
/-- SBC (nn),Y, 0xF1 (R93). -/
def execSbcIzy (b : Byte) (s : State) : Outcome := runRead (.sbcIzy b) subFromA s

/-- CMP #nn, 0xC9 (R95). -/
def execCmpImm (b : Byte) (s : State) : Outcome := runRead (.cmpImm b) (compareWith State.a) s
/-- CMP zero page, 0xC5 (R95). -/
def execCmpZp0 (b : Byte) (s : State) : Outcome := runRead (.cmpZp0 b) (compareWith State.a) s
/-- CMP zero page,X, 0xD5 (R95). -/
def execCmpZpx (b : Byte) (s : State) : Outcome := runRead (.cmpZpx b) (compareWith State.a) s
/-- CMP absolute, 0xCD (R95). -/
def execCmpAbs (w : Addr) (s : State) : Outcome := runRead (.cmpAbs w) (compareWith State.a) s
/-- CMP absolute,X, 0xDD (R95). -/
def execCmpAbx (w : Addr) (s : State) : Outcome := runRead (.cmpAbx w) (compareWith State.a) s
/-- CMP absolute,Y, 0xD9 (R95). -/
def execCmpAby (w : Addr) (s : State) : Outcome := runRead (.cmpAby w) (compareWith State.a) s
/-- CMP (nn,X), 0xC1 (R95). -/
def execCmpIzx (b : Byte) (s : State) : Outcome := runRead (.cmpIzx b) (compareWith State.a) s
/-- CMP (nn),Y, 0xD1 (R95). -/
def execCmpIzy (b : Byte) (s : State) : Outcome := runRead (.cmpIzy b) (compareWith State.a) s

/-- CPX #nn, 0xE0 (R96). -/
def execCpxImm (b : Byte) (s : State) : Outcome := runRead (.cpxImm b) (compareWith State.x) s
/-- CPX zero page, 0xE4 (R96). -/
def execCpxZp0 (b : Byte) (s : State) : Outcome := runRead (.cpxZp0 b) (compareWith State.x) s
/-- CPX absolute, 0xEC (R96). -/
def execCpxAbs (w : Addr) (s : State) : Outcome := runRead (.cpxAbs w) (compareWith State.x) s

/-- CPY #nn, 0xC0 (R97). -/
def execCpyImm (b : Byte) (s : State) : Outcome := runRead (.cpyImm b) (compareWith State.y) s
/-- CPY zero page, 0xC4 (R97). -/
def execCpyZp0 (b : Byte) (s : State) : Outcome := runRead (.cpyZp0 b) (compareWith State.y) s
/-- CPY absolute, 0xCC (R97). -/
def execCpyAbs (w : Addr) (s : State) : Outcome := runRead (.cpyAbs w) (compareWith State.y) s

end Sys2Proof.Machine
end

