-- ==== Sys2Proof/Machine/Control.lean ====
section
/-! DEFINITION. One meaning for each instruction of a family:
branches, jumps, subroutines (`46_control.md`). -/

namespace Sys2Proof.Machine

/-- JSR (R141): pushes the address of its own last byte, `mask16(PC - 1)`, high byte first, then jumps.
R141's corner case says that a JSR whose operand bytes straddle 0xFFFF pushes 0x0001; its pseudocode
gives 0x0000 for the JSR at 0xFFFE (operand bytes at 0xFFFF and 0x0000) and 0x0001 for the JSR at 0xFFFF.
DESIGN CHOICE (log 17): the model follows the pseudocode. -/
def callSubroutine (s : State) : State := (pushWord (s.pc - 1) s).setPc s.ea
/-- RTS (R142): pulls a word and goes to the address after it. -/
def returnFromSubroutine (s : State) : State := let w := pullWord s; w.2.setPc (w.1 + 1)

/-- BCC relative, 0x90 (R132). -/
def execBcc (b : Byte) (s : State) : Outcome := runBranch (.bcc b) (fun r => !r.flag .C) s

/-- BCS relative, 0xB0 (R133). -/
def execBcs (b : Byte) (s : State) : Outcome := runBranch (.bcs b) (State.flag · .C) s

/-- BEQ relative, 0xF0 (R134). -/
def execBeq (b : Byte) (s : State) : Outcome := runBranch (.beq b) (State.flag · .Z) s

/-- BNE relative, 0xD0 (R135). -/
def execBne (b : Byte) (s : State) : Outcome := runBranch (.bne b) (fun r => !r.flag .Z) s

/-- BMI relative, 0x30 (R136). -/
def execBmi (b : Byte) (s : State) : Outcome := runBranch (.bmi b) (State.flag · .N) s

/-- BPL relative, 0x10 (R137). -/
def execBpl (b : Byte) (s : State) : Outcome := runBranch (.bpl b) (fun r => !r.flag .N) s

/-- BVC relative, 0x50 (R138). -/
def execBvc (b : Byte) (s : State) : Outcome := runBranch (.bvc b) (fun r => !r.flag .V) s

/-- BVS relative, 0x70 (R139). -/
def execBvs (b : Byte) (s : State) : Outcome := runBranch (.bvs b) (State.flag · .V) s

/-- JMP absolute, 0x4C (R140). -/
def execJmpAbs (w : Addr) (s : State) : Outcome := runPlain (.jmpAbs w) (fun r => r.setPc r.ea) s
/-- JMP (indirect), 0x6C (R140). -/
def execJmpInd (w : Addr) (s : State) : Outcome := runPlain (.jmpInd w) (fun r => r.setPc r.ea) s

/-- JSR absolute, 0x20 (R141). -/
def execJsr (w : Addr) (s : State) : Outcome := runPlain (.jsr w) callSubroutine s

/-- RTS implied, 0x60 (R142). -/
def execRts (s : State) : Outcome := runPlain .rts returnFromSubroutine s

end Sys2Proof.Machine
end

