-- ==== Sys2Proof/Machine/IncDecTransfer.lean ====
section
/-! DEFINITION. One meaning for each instruction of a family:
increment, decrement, transfer and flags (`44_incdec_transfer_flags.md`). -/

namespace Sys2Proof.Machine

/-- INC zero page, 0xE6 (R107). -/
def execIncZp0 (b : Byte) (s : State) : Outcome := runModify (.incZp0 b) incByte s
/-- INC zero page,X, 0xF6 (R107). -/
def execIncZpx (b : Byte) (s : State) : Outcome := runModify (.incZpx b) incByte s
/-- INC absolute, 0xEE (R107). -/
def execIncAbs (w : Addr) (s : State) : Outcome := runModify (.incAbs w) incByte s
/-- INC absolute,X, 0xFE (R107). -/
def execIncAbx (w : Addr) (s : State) : Outcome := runModify (.incAbx w) incByte s

/-- DEC zero page, 0xC6 (R108). -/
def execDecZp0 (b : Byte) (s : State) : Outcome := runModify (.decZp0 b) decByte s
/-- DEC zero page,X, 0xD6 (R108). -/
def execDecZpx (b : Byte) (s : State) : Outcome := runModify (.decZpx b) decByte s
/-- DEC absolute, 0xCE (R108). -/
def execDecAbs (w : Addr) (s : State) : Outcome := runModify (.decAbs w) decByte s
/-- DEC absolute,X, 0xDE (R108). -/
def execDecAbx (w : Addr) (s : State) : Outcome := runModify (.decAbx w) decByte s

/-- INX implied, 0xE8 (R109). -/
def execInx (s : State) : Outcome := runPlain .inx (fun r => (r.setX (r.x + 1)).setNZ (r.x + 1)) s

/-- INY implied, 0xC8 (R110). -/
def execIny (s : State) : Outcome := runPlain .iny (fun r => (r.setY (r.y + 1)).setNZ (r.y + 1)) s

/-- DEX implied, 0xCA (R111). -/
def execDex (s : State) : Outcome := runPlain .dex (fun r => (r.setX (r.x - 1)).setNZ (r.x - 1)) s

/-- DEY implied, 0x88 (R112). -/
def execDey (s : State) : Outcome := runPlain .dey (fun r => (r.setY (r.y - 1)).setNZ (r.y - 1)) s

/-- TAX implied, 0xAA (R113). -/
def execTax (s : State) : Outcome := runPlain .tax (fun r => (r.setX r.a).setNZ r.a) s

/-- TAY implied, 0xA8 (R114). -/
def execTay (s : State) : Outcome := runPlain .tay (fun r => (r.setY r.a).setNZ r.a) s

/-- TXA implied, 0x8A (R115). -/
def execTxa (s : State) : Outcome := runPlain .txa (fun r => (r.setA r.x).setNZ r.x) s

/-- TYA implied, 0x98 (R116). -/
def execTya (s : State) : Outcome := runPlain .tya (fun r => (r.setA r.y).setNZ r.y) s

/-- TSX implied, 0xBA (R117). -/
def execTsx (s : State) : Outcome := runPlain .tsx (fun r => (r.setX r.sp).setNZ r.sp) s

/-- TXS implied, 0x9A (R118). -/
def execTxs (s : State) : Outcome := runPlain .txs (fun r => r.setSp r.x) s

/-- CLC implied, 0x18 (R119). -/
def execClc (s : State) : Outcome := runPlain .clc (State.setFlag · .C false) s

/-- SEC implied, 0x38 (R120). -/
def execSec (s : State) : Outcome := runPlain .sec (State.setFlag · .C true) s

/-- CLI implied, 0x58 (R121). -/
def execCli (s : State) : Outcome := runPlain .cli (State.setFlag · .I false) s

/-- SEI implied, 0x78 (R122). -/
def execSei (s : State) : Outcome := runPlain .sei (State.setFlag · .I true) s

/-- CLD implied, 0xD8 (R123). -/
def execCld (s : State) : Outcome := runPlain .cld (State.setFlag · .D false) s

/-- SED implied, 0xF8 (R124). -/
def execSed (s : State) : Outcome := runPlain .sed (State.setFlag · .D true) s

/-- CLV implied, 0xB8 (R125). -/
def execClv (s : State) : Outcome := runPlain .clv (State.setFlag · .V false) s

end Sys2Proof.Machine
end

