-- ==== Sys2Proof/Machine/LoadStore.lean ====
section
/-! DEFINITION. One meaning for each instruction of a family:
loads and stores (`41_load_store.md`). -/

namespace Sys2Proof.Machine

/-- LDA (R82): A is the operand; N and Z follow it. -/
def loadA (m : Byte) (s : State) : State := (s.setA m).setNZ m
/-- LDX (R83): X is the operand; N and Z follow it. -/
def loadX (m : Byte) (s : State) : State := (s.setX m).setNZ m
/-- LDY (R84): Y is the operand; N and Z follow it. -/
def loadY (m : Byte) (s : State) : State := (s.setY m).setNZ m

/-- LDA #nn, 0xA9 (R82). -/
def execLdaImm (b : Byte) (s : State) : Outcome := runRead (.ldaImm b) loadA s
/-- LDA zero page, 0xA5 (R82). -/
def execLdaZp0 (b : Byte) (s : State) : Outcome := runRead (.ldaZp0 b) loadA s
/-- LDA zero page,X, 0xB5 (R82). -/
def execLdaZpx (b : Byte) (s : State) : Outcome := runRead (.ldaZpx b) loadA s
/-- LDA absolute, 0xAD (R82). -/
def execLdaAbs (w : Addr) (s : State) : Outcome := runRead (.ldaAbs w) loadA s
/-- LDA absolute,X, 0xBD (R82). -/
def execLdaAbx (w : Addr) (s : State) : Outcome := runRead (.ldaAbx w) loadA s
/-- LDA absolute,Y, 0xB9 (R82). -/
def execLdaAby (w : Addr) (s : State) : Outcome := runRead (.ldaAby w) loadA s
/-- LDA (nn,X), 0xA1 (R82). -/
def execLdaIzx (b : Byte) (s : State) : Outcome := runRead (.ldaIzx b) loadA s
/-- LDA (nn),Y, 0xB1 (R82). -/
def execLdaIzy (b : Byte) (s : State) : Outcome := runRead (.ldaIzy b) loadA s

/-- LDX #nn, 0xA2 (R83). -/
def execLdxImm (b : Byte) (s : State) : Outcome := runRead (.ldxImm b) loadX s
/-- LDX zero page, 0xA6 (R83). -/
def execLdxZp0 (b : Byte) (s : State) : Outcome := runRead (.ldxZp0 b) loadX s
/-- LDX zero page,Y, 0xB6 (R83). -/
def execLdxZpy (b : Byte) (s : State) : Outcome := runRead (.ldxZpy b) loadX s
/-- LDX absolute, 0xAE (R83). -/
def execLdxAbs (w : Addr) (s : State) : Outcome := runRead (.ldxAbs w) loadX s
/-- LDX absolute,Y, 0xBE (R83). -/
def execLdxAby (w : Addr) (s : State) : Outcome := runRead (.ldxAby w) loadX s

/-- LDY #nn, 0xA0 (R84). -/
def execLdyImm (b : Byte) (s : State) : Outcome := runRead (.ldyImm b) loadY s
/-- LDY zero page, 0xA4 (R84). -/
def execLdyZp0 (b : Byte) (s : State) : Outcome := runRead (.ldyZp0 b) loadY s
/-- LDY zero page,X, 0xB4 (R84). -/
def execLdyZpx (b : Byte) (s : State) : Outcome := runRead (.ldyZpx b) loadY s
/-- LDY absolute, 0xAC (R84). -/
def execLdyAbs (w : Addr) (s : State) : Outcome := runRead (.ldyAbs w) loadY s
/-- LDY absolute,X, 0xBC (R84). -/
def execLdyAbx (w : Addr) (s : State) : Outcome := runRead (.ldyAbx w) loadY s

/-- STA zero page, 0x85 (R85). -/
def execStaZp0 (b : Byte) (s : State) : Outcome := runStore (.staZp0 b) State.a s
/-- STA zero page,X, 0x95 (R85). -/
def execStaZpx (b : Byte) (s : State) : Outcome := runStore (.staZpx b) State.a s
/-- STA absolute, 0x8D (R85). -/
def execStaAbs (w : Addr) (s : State) : Outcome := runStore (.staAbs w) State.a s
/-- STA absolute,X, 0x9D (R85). -/
def execStaAbx (w : Addr) (s : State) : Outcome := runStore (.staAbx w) State.a s
/-- STA absolute,Y, 0x99 (R85). -/
def execStaAby (w : Addr) (s : State) : Outcome := runStore (.staAby w) State.a s
/-- STA (nn,X), 0x81 (R85). -/
def execStaIzx (b : Byte) (s : State) : Outcome := runStore (.staIzx b) State.a s
/-- STA (nn),Y, 0x91 (R85). -/
def execStaIzy (b : Byte) (s : State) : Outcome := runStore (.staIzy b) State.a s

/-- STX zero page, 0x86 (R86). -/
def execStxZp0 (b : Byte) (s : State) : Outcome := runStore (.stxZp0 b) State.x s
/-- STX zero page,Y, 0x96 (R86). -/
def execStxZpy (b : Byte) (s : State) : Outcome := runStore (.stxZpy b) State.x s
/-- STX absolute, 0x8E (R86). -/
def execStxAbs (w : Addr) (s : State) : Outcome := runStore (.stxAbs w) State.x s

/-- STY zero page, 0x84 (R87). -/
def execStyZp0 (b : Byte) (s : State) : Outcome := runStore (.styZp0 b) State.y s
/-- STY zero page,X, 0x94 (R87). -/
def execStyZpx (b : Byte) (s : State) : Outcome := runStore (.styZpx b) State.y s
/-- STY absolute, 0x8C (R87). -/
def execStyAbs (w : Addr) (s : State) : Outcome := runStore (.styAbs w) State.y s

end Sys2Proof.Machine
end

