-- ==== Sys2Proof/Machine/LogicShift.lean ====
section
/-! DEFINITION. One meaning for each instruction of a family:
logical, bit test, shift and rotate (`43_logic_shift.md`). -/

namespace Sys2Proof.Machine

/-- AND (R98). -/
def andA (m : Byte) (s : State) : State := (s.setA (s.a &&& m)).setNZ (s.a &&& m)
/-- ORA (R99). -/
def orA (m : Byte) (s : State) : State := (s.setA (s.a ||| m)).setNZ (s.a ||| m)
/-- EOR (R100). -/
def eorA (m : Byte) (s : State) : State := (s.setA (s.a ^^^ m)).setNZ (s.a ^^^ m)
/-- BIT (R101): A is not written. -/
def bitTest (m : Byte) (s : State) : State := s.setP (bitFlags s.a m s.p)

/-- AND #nn, 0x29 (R98). -/
def execAndImm (b : Byte) (s : State) : Outcome := runRead (.andImm b) andA s
/-- AND zero page, 0x25 (R98). -/
def execAndZp0 (b : Byte) (s : State) : Outcome := runRead (.andZp0 b) andA s
/-- AND zero page,X, 0x35 (R98). -/
def execAndZpx (b : Byte) (s : State) : Outcome := runRead (.andZpx b) andA s
/-- AND absolute, 0x2D (R98). -/
def execAndAbs (w : Addr) (s : State) : Outcome := runRead (.andAbs w) andA s
/-- AND absolute,X, 0x3D (R98). -/
def execAndAbx (w : Addr) (s : State) : Outcome := runRead (.andAbx w) andA s
/-- AND absolute,Y, 0x39 (R98). -/
def execAndAby (w : Addr) (s : State) : Outcome := runRead (.andAby w) andA s
/-- AND (nn,X), 0x21 (R98). -/
def execAndIzx (b : Byte) (s : State) : Outcome := runRead (.andIzx b) andA s
/-- AND (nn),Y, 0x31 (R98). -/
def execAndIzy (b : Byte) (s : State) : Outcome := runRead (.andIzy b) andA s

/-- ORA #nn, 0x09 (R99). -/
def execOraImm (b : Byte) (s : State) : Outcome := runRead (.oraImm b) orA s
/-- ORA zero page, 0x05 (R99). -/
def execOraZp0 (b : Byte) (s : State) : Outcome := runRead (.oraZp0 b) orA s
/-- ORA zero page,X, 0x15 (R99). -/
def execOraZpx (b : Byte) (s : State) : Outcome := runRead (.oraZpx b) orA s
/-- ORA absolute, 0x0D (R99). -/
def execOraAbs (w : Addr) (s : State) : Outcome := runRead (.oraAbs w) orA s
/-- ORA absolute,X, 0x1D (R99). -/
def execOraAbx (w : Addr) (s : State) : Outcome := runRead (.oraAbx w) orA s
/-- ORA absolute,Y, 0x19 (R99). -/
def execOraAby (w : Addr) (s : State) : Outcome := runRead (.oraAby w) orA s
/-- ORA (nn,X), 0x01 (R99). -/
def execOraIzx (b : Byte) (s : State) : Outcome := runRead (.oraIzx b) orA s
/-- ORA (nn),Y, 0x11 (R99). -/
def execOraIzy (b : Byte) (s : State) : Outcome := runRead (.oraIzy b) orA s

/-- EOR #nn, 0x49 (R100). -/
def execEorImm (b : Byte) (s : State) : Outcome := runRead (.eorImm b) eorA s
/-- EOR zero page, 0x45 (R100). -/
def execEorZp0 (b : Byte) (s : State) : Outcome := runRead (.eorZp0 b) eorA s
/-- EOR zero page,X, 0x55 (R100). -/
def execEorZpx (b : Byte) (s : State) : Outcome := runRead (.eorZpx b) eorA s
/-- EOR absolute, 0x4D (R100). -/
def execEorAbs (w : Addr) (s : State) : Outcome := runRead (.eorAbs w) eorA s
/-- EOR absolute,X, 0x5D (R100). -/
def execEorAbx (w : Addr) (s : State) : Outcome := runRead (.eorAbx w) eorA s
/-- EOR absolute,Y, 0x59 (R100). -/
def execEorAby (w : Addr) (s : State) : Outcome := runRead (.eorAby w) eorA s
/-- EOR (nn,X), 0x41 (R100). -/
def execEorIzx (b : Byte) (s : State) : Outcome := runRead (.eorIzx b) eorA s
/-- EOR (nn),Y, 0x51 (R100). -/
def execEorIzy (b : Byte) (s : State) : Outcome := runRead (.eorIzy b) eorA s

/-- BIT zero page, 0x24 (R101). -/
def execBitZp0 (b : Byte) (s : State) : Outcome := runRead (.bitZp0 b) bitTest s
/-- BIT absolute, 0x2C (R101). -/
def execBitAbs (w : Addr) (s : State) : Outcome := runRead (.bitAbs w) bitTest s

/-- ASL on A, 0x0A (R103). -/
def execAslAcc (s : State) : Outcome := runModify .aslAcc aslByte s
/-- ASL zero page, 0x06 (R103). -/
def execAslZp0 (b : Byte) (s : State) : Outcome := runModify (.aslZp0 b) aslByte s
/-- ASL zero page,X, 0x16 (R103). -/
def execAslZpx (b : Byte) (s : State) : Outcome := runModify (.aslZpx b) aslByte s
/-- ASL absolute, 0x0E (R103). -/
def execAslAbs (w : Addr) (s : State) : Outcome := runModify (.aslAbs w) aslByte s
/-- ASL absolute,X, 0x1E (R103). -/
def execAslAbx (w : Addr) (s : State) : Outcome := runModify (.aslAbx w) aslByte s

/-- LSR on A, 0x4A (R104). -/
def execLsrAcc (s : State) : Outcome := runModify .lsrAcc lsrByte s
/-- LSR zero page, 0x46 (R104). -/
def execLsrZp0 (b : Byte) (s : State) : Outcome := runModify (.lsrZp0 b) lsrByte s
/-- LSR zero page,X, 0x56 (R104). -/
def execLsrZpx (b : Byte) (s : State) : Outcome := runModify (.lsrZpx b) lsrByte s
/-- LSR absolute, 0x4E (R104). -/
def execLsrAbs (w : Addr) (s : State) : Outcome := runModify (.lsrAbs w) lsrByte s
/-- LSR absolute,X, 0x5E (R104). -/
def execLsrAbx (w : Addr) (s : State) : Outcome := runModify (.lsrAbx w) lsrByte s

/-- ROL on A, 0x2A (R105). -/
def execRolAcc (s : State) : Outcome := runModify .rolAcc rolByte s
/-- ROL zero page, 0x26 (R105). -/
def execRolZp0 (b : Byte) (s : State) : Outcome := runModify (.rolZp0 b) rolByte s
/-- ROL zero page,X, 0x36 (R105). -/
def execRolZpx (b : Byte) (s : State) : Outcome := runModify (.rolZpx b) rolByte s
/-- ROL absolute, 0x2E (R105). -/
def execRolAbs (w : Addr) (s : State) : Outcome := runModify (.rolAbs w) rolByte s
/-- ROL absolute,X, 0x3E (R105). -/
def execRolAbx (w : Addr) (s : State) : Outcome := runModify (.rolAbx w) rolByte s

/-- ROR on A, 0x6A (R106). -/
def execRorAcc (s : State) : Outcome := runModify .rorAcc rorByte s
/-- ROR zero page, 0x66 (R106). -/
def execRorZp0 (b : Byte) (s : State) : Outcome := runModify (.rorZp0 b) rorByte s
/-- ROR zero page,X, 0x76 (R106). -/
def execRorZpx (b : Byte) (s : State) : Outcome := runModify (.rorZpx b) rorByte s
/-- ROR absolute, 0x6E (R106). -/
def execRorAbs (w : Addr) (s : State) : Outcome := runModify (.rorAbs w) rorByte s
/-- ROR absolute,X, 0x7E (R106). -/
def execRorAbx (w : Addr) (s : State) : Outcome := runModify (.rorAbx w) rorByte s

end Sys2Proof.Machine
end

