-- ==== Sys2Proof/Machine/Stack.lean ====
section
/-! DEFINITION. One meaning for each instruction of a family:
stack (`45_stack.md`). -/

namespace Sys2Proof.Machine

/-- PLA (R128): pulls A, with the flags of a load. -/
def pullA (s : State) : State := let v := pull s; (v.2.setA v.1).setNZ v.1
/-- PLP (R129): pulls P by `LoadP`. -/
def pullP (s : State) : State := let v := pull s; v.2.setP (loadP v.1)

/-- PHA implied, 0x48 (R126). -/
def execPha (s : State) : Outcome := runPlain .pha (fun r => push r.a r) s

/-- PHP implied, 0x08 (R127). -/
def execPhp (s : State) : Outcome := runPlain .php (fun r => push (pushedP r.p true) r) s

/-- PLA implied, 0x68 (R128). -/
def execPla (s : State) : Outcome := runPlain .pla pullA s

/-- PLP implied, 0x28 (R129). -/
def execPlp (s : State) : Outcome := runPlain .plp pullP s

end Sys2Proof.Machine
end

