-- ==== Sys2Proof/Machine/System.lean ====
section
/-! DEFINITION. One meaning for each instruction of a family:
break, return from interrupt, no-operation (`47_system.md`). -/

namespace Sys2Proof.Machine

/-- BRK (R143): skips the padding byte, then enters through the IRQ/BRK vector with B pushed
as 1; `Enter` is shared with IRQ and NMI (R158). -/
def softwareBreak (s : State) : State := enter true Config.irqVector (s.setPc (s.pc + 1))

/-- BRK implied, 0x00 (R143). -/
def execBrk (s : State) : Outcome := runPlain .brk softwareBreak s

/-- RTI implied, 0x40 (R144). -/
def execRti (s : State) : Outcome := runPlain .rti returnFromInterrupt s

/-- NOP implied, 0xEA (R145). -/
def execNop (s : State) : Outcome := runPlain .nop (fun r => r) s

/-- ILLEGAL, any of the 105 undocumented bytes (R146): a one-byte, two-cycle no-op. -/
def execIllegal (op : Byte) (s : State) : Outcome := runPlain (.illegal op) (fun r => r) s

end Sys2Proof.Machine
end

