-- ==== Sys2Proof/Machine/Fetch.lean ====
section
/-! DEFINITION. Fetching an instruction's bytes (`48_step_machine.md` R147, `20_memory.md` R55) and
placing an instruction where the next fetch finds it. -/

namespace Sys2Proof.Machine

/-- The three bytes from PC on, PC wrapping at 0xFFFF (R16), read in order: what a fetch can read. -/
def State.fetchWindow (s : State) : List Byte :=
  let s₁ := s.noteRead s.pc
  let s₂ := s₁.noteRead (s.pc + 1)
  [s.byteAt s.pc, s₁.byteAt (s.pc + 1), s₂.byteAt (s.pc + 2)]

/-- Reads the opcode at PC and then just the operand bytes its shape asks for, in order (R58, R81).
The immediate byte, which R67 has the semantics read, is read here, at the same place in the order
of accesses (log 9). PC itself is advanced by `resolve`. -/
def fetch (s : State) : Instr × State :=
  let op := memRead s.pc s
  match shapeOf op.1 with
  | .one i => (i, op.2)
  | .two f =>
    let b := memRead (s.pc + 1) op.2
    (f b.1, b.2)
  | .three f =>
    let lo := memRead (s.pc + 1) op.2
    let hi := memRead (s.pc + 2) lo.2
    (f (joinBytes hi.1 lo.1), hi.2)

/-- Writes a list of bytes into a memory from an address on, addresses wrapping at 0xFFFF. -/
def storeBytes (m : Memory) (a : Addr) : List Byte → Memory
  | []     => m
  | b :: t => storeBytes (m.write a.toNat b) (a + 1) t

end Sys2Proof.Machine
end

