-- ==== Sys2Proof/Machine/Cycle.lean ====
section
/-! DEFINITION. The two things a `step()` call of a powered core can do (`48_step_machine.md` R147,
R150), and the trace snapshot (R153). -/

namespace Sys2Proof.Machine

/-- What every host call starts from: nothing returned and no bus access made yet (log 7); a bus with
a device keeps the accesses of the call before (log 16). -/
def State.beginCall (s : State) : State :=
  { s with
    trace    := none
    accesses := []
    past     := if s.bus.hasDevice then s.history else s.past }

/-- The operand value a snapshot shows (R153): the immediate byte; a branch's target, taken or not;
nothing for IMP and ACC; else `ea`. `pc0` is the opcode's address. -/
def traceOperand (i : Instr) (pc0 ea : Addr) : OperandValue :=
  match i.operand with
  | .imm b => .byte b
  | .rel _ => .word (pc0 + 2 + ea)
  | .imp   => .none
  | .acc   => .none
  | .zp0 _ | .zpx _ | .zpy _ | .izx _ | .izy _ | .abs _ | .abx _ | .aby _ | .ind _ => .word ea

/-- `Snapshot(pc0, regs)` (R153): the address and registers are those before the fetch. -/
def snapshot (before : State) (i : Instr) (ea : Addr) : TraceSnapshot where
  address  := before.pc
  bytes    := encode i
  mnemonic := i.mnemonic
  mode     := i.mode
  operand  := traceOperand i before.pc ea
  a        := before.a
  x        := before.x
  y        := before.y
  sp       := before.sp
  p        := before.p

/-- The end of a fetch call (R147): the snapshot if trace mode is on, and the decrement. -/
def finishFetchCall (before : State) (i : Instr) (after : State) : State :=
  { after with
    trace   := bif before.traceEnabled then some (snapshot before i after.ea) else none
    pending := after.pending - 1 }

/-- Applies a function to the next state of an outcome, if there is one. -/
def mapNext (f : State → State) : Outcome → Outcome
  | .next t    => .next (f t)
  | .fault r   => .fault r
  | .refused r => .refused r

/-- A call that finds `pending` at 0: fetch, decode, resolve, execute, count (R147). -/
def fetchDecodeExecute (s : State) : Outcome :=
  let f := fetch s.beginCall
  mapNext (finishFetchCall s f.1) (exec f.1 f.2)

/-- A call in the middle of an instruction's countdown: it only counts (R150). -/
def countDown (s : State) : State := s.beginCall.setPending (s.pending - 1)

end Sys2Proof.Machine
end

