-- ==== Sys2Proof/Machine/Step.lean ====
section
/-! DEFINITION. `step()`, one clock cycle (`48_step_machine.md` R147), and the host's way to place an
instruction for the next fetch. -/

namespace Sys2Proof.Machine

/-- One `step()` call (R147, R150): refused before the first reset (R35); at an instruction boundary
it runs a whole instruction; else it counts down. Its result `cycles_remaining` is the new
`pending`. -/
def step (s : State) : Host.Outcome State Fault Refusal :=
  if s.powered then
    if s.pending = 0 then fetchDecodeExecute s else .next (countDown s)
  else .refused .notPowered

/-- The state with an instruction's bytes stored at PC and the core at an instruction boundary, so
that the very next `step` fetches it; the bus is the default one, on which PC is RAM (log 8). -/
def State.withFetchWord (s : State) (nbits w : Nat) : State :=
  { s with
    bus     := Bus.ram
    mem     := storeBytes s.mem s.pc (layOut nbits w)
    pending := 0
    powered := true }

end Sys2Proof.Machine
end

