-- ==== Sys2Proof/Machine/Calls.lean ====
section
/-! DEFINITION. The host's other operations (`10_state.md` R36 to R38): construction, reset, the two
interrupt requests, the state snapshot, and the host's own write to its memory between calls; and
one transition function over all of them (log 11). -/

namespace Sys2Proof.Machine

/-- `new(read, write, trace_enabled)` (R37). The two callbacks are the parameter `bus` over the host's
memory `mem` (`00_scope.md` R7, `20_memory.md` R43). What A, X, Y, SP, PC, P, `ea`, `cur` and `pending`
hold after it is unspecified: the caller of this function supplies them, and a claim about `new`
holds for all of them (log 12). -/
def new (unspecified : State) (bus : Bus) (mem : Memory) (traceEnabled : Bool) : State :=
  { unspecified with
    bus          := bus
    mem          := mem
    traceEnabled := traceEnabled
    powered      := false
    trace        := none
    accesses     := []
    past         := [] }

/-- `reset()` (`70_reset_and_hazards.md` R172, R173): admitted at any time. `ea` and `cur` are left
as they are (R31, R40). -/
def resetCall (s : State) : State :=
  let v := read16 Config.resetVector (Config.resetVector + 1) s.beginCall
  { v.2 with
    a       := 0x00
    x       := 0x00
    y       := 0x00
    sp      := 0xFF
    p       := 0x24
    pc      := v.1
    pending := 8
    powered := true }

/-- Interrupt entry by a host call (R160, R161): `Enter` with B pushed as 0, then 7 cycles. -/
def interruptEntry (vec : Addr) (s : State) : State := (enter false vec s.beginCall).setPending 7

/-- The admission rule of `irq()` and `nmi()` (R159): a powered core at an instruction boundary. -/
def admitted (s : State) (answer : State) : Outcome :=
  if s.powered then
    if s.pending = 0 then .next answer else .refused .notAtBoundary
  else .refused .notPowered

/-- `irq()` (R160): no effect at all while I is 1. -/
def irq (s : State) : Outcome :=
  admitted s (bif s.flag .I then s.beginCall else interruptEntry Config.irqVector s)

/-- `nmi()` (R161): taken whatever I holds. -/
def nmi (s : State) : Outcome := admitted s (interruptEntry Config.nmiVector s)

/-- What `get_state()` returns (R38). -/
structure CoreSnapshot where
  instruction : OpEntry
  a           : Byte
  x           : Byte
  y           : Byte
  pc          : Addr
  sp          : Byte
  status      : Byte
  deriving DecidableEq, Repr

/-- `get_state()` (R38): reads, changes nothing. -/
def getState (s : State) : CoreSnapshot := ⟨s.cur, s.a, s.x, s.y, s.pc, s.sp, s.p⟩

/-- The host changes a byte of its memory between two calls (`20_memory.md` R52, R174 step 1), behind
the bus, so ROM too; the core makes no bus access (log 13). -/
def hostWrite (a : Addr) (v : Byte) (s : State) : State :=
  { s with mem := s.mem.write a.toNat v }

/-- What the host can do to the machine between constructing it and dropping it (R36, R52). -/
inductive HostAction where
  | step
  | reset
  | irq
  | nmi
  | write (a : Addr) (v : Byte)
  deriving DecidableEq, Repr

/-- The whole machine: what each action of the host does. -/
def call (c : HostAction) (s : State) : Outcome :=
  match c with
  | .step      => Machine.step s
  | .reset     => .next (resetCall s)
  | .irq       => Machine.irq s
  | .nmi       => Machine.nmi s
  | .write a v => .next (hostWrite a v s)

end Sys2Proof.Machine
end

