-- ==== Sys2Proof/Safety.lean ====
section
/-! DEFINITION. The vocabulary of the claims: the machine's invariant (`10_state.md` R39), frames,
and the spec's tables of who writes which register and flag, what an instruction stores, how many
cycles it takes and which bus accesses it makes. Nothing here is used by the machine. -/

namespace Sys2Proof.Machine

/-! ### The invariant -/

/-- The invariant of R39: memory is in canonical form, `pending` is at most 8, and U is 1 once the
core is powered. The register widths of R39 are in the types. -/
abbrev State.Inv (s : State) : Prop :=
  s.mem.wf = true ∧ s.pending ≤ 8 ∧ (s.powered = true → s.flag .U = true)

/-! ### Frames -/

/-- The 8-bit registers an instruction can name. -/
inductive Reg where
  | A | X | Y | SP
  deriving DecidableEq, Repr

/-- Reads a register by name. -/
def State.reg (s : State) : Reg → Byte
  | .A => s.a | .X => s.x | .Y => s.y | .SP => s.sp

/-- Going from `s` to `t` changed at most the memory behind the addresses `as`. On every bus: each
cell that is not the RAM of one of them holds what it held. On the default bus that is: every other
address reads as before. -/
structure KeepsMemory (s t : State) (as : List Addr) : Prop where
  cells : ∀ k : Addr, (∀ a ∈ as, s.bus.place a ≠ .ram k) → t.mem.read k.toNat = s.mem.read k.toNat
  bytes : s.bus = Bus.ram → ∀ a, a ∉ as → t.byteAt a = s.byteAt a

/-- Going from `s` to `t` changed at most the registers `rs`, the flags `fs` and the memory behind the
addresses `as`, and neither the bus, nor `powered`, nor `traceEnabled`. PC, `ea`, `cur`, `pending`, the
trace and the record of accesses are left to the claim. -/
structure Frame (s t : State) (rs : List Reg) (fs : List Flag) (as : List Addr) : Prop where
  regs         : ∀ r, r ∉ rs → t.reg r = s.reg r
  flags        : ∀ f, f ∉ fs → t.flag f = s.flag f
  memory       : KeepsMemory s t as
  bus          : t.bus = s.bus
  powered      : t.powered = s.powered
  traceEnabled : t.traceEnabled = s.traceEnabled

/-- The address of the next sequential instruction after `i` at `s.pc` (R17). -/
def nextPc (i : Instr) (s : State) : Addr := s.pc + BitVec.ofNat 16 i.length

/-- All flags of P: what PLP and RTI write. -/
def allFlags : List Flag := [.N, .V, .U, .B, .D, .I, .Z, .C]

/-! ### Operands and results -/

/-- The memory operand M of an instruction (R67): the immediate byte, or the byte at the effective
address, read after the pointer bytes (R81). -/
def memOperand (i : Instr) (s : State) : Byte :=
  match i.operand with
  | .imm b => b
  | o      => (s.noteReads (pointerReads o s)).byteAt (effectiveAddress o s)

/-- Going from `s` to `t`, the instruction `i` replaced its memory operand by `r`: after the pointer
reads, one read of the operand and one write of `r` at the effective address (R48). On the default bus
`r` then stands there. -/
def ModifiesOperand (i : Instr) (s t : State) (r : Byte) : Prop :=
  let ea := effectiveAddress i.operand s
  t.accesses = (resolve i s).accesses ++ [.read ea (memOperand i s), .write ea r] ∧
  (s.bus = Bus.ram → t.byteAt ea = r)

/-- N and Z of `t` follow an 8-bit result (R28). -/
def FlagsFollow (t : State) (r : Byte) : Prop :=
  (t.flag .Z = true ↔ r.toNat = 0) ∧ (t.flag .N = true ↔ 128 ≤ r.toNat)

/-! ### The branches (R131) -/

/-- The flag each branch tests and the value it is taken on; `none` for every other mnemonic. -/
def branchTest : Mnemonic → Option (Flag × Bool)
  | .BCC => some (.C, false) | .BCS => some (.C, true)
  | .BEQ => some (.Z, true)  | .BNE => some (.Z, false)
  | .BMI => some (.N, true)  | .BPL => some (.N, false)
  | .BVC => some (.V, false) | .BVS => some (.V, true)
  | _    => none

/-- The extra cycles of a branch (R130, R149): 0 for every other instruction and for one not taken. -/
def branchCycles (i : Instr) (s : State) : Nat :=
  match branchTest i.mnemonic with
  | none        => 0
  | some (f, v) =>
    if s.flag f = v then
      if hiByte (nextPc i s + effectiveAddress i.operand s) = hiByte (nextPc i s) then 1 else 2
    else 0

/-- The cycle count of an instruction (R149). -/
def cyclesOf (i : Instr) (s : State) : Nat :=
  i.entry.baseCycles + resolverExtra i s + branchCycles i s

/-! ### Who writes what, register by register and flag by flag -/

/-- The instructions that write each register (R15, R18): by mnemonic, the shifts on A apart. -/
def writesReg (r : Reg) (i : Instr) : Bool :=
  match r with
  | .A  => [Mnemonic.LDA, .TXA, .TYA, .PLA, .AND, .ORA, .EOR, .ADC, .SBC].contains i.mnemonic ||
           ([Mnemonic.ASL, .LSR, .ROL, .ROR].contains i.mnemonic && i.mode == .ACC)
  | .X  => [Mnemonic.LDX, .TAX, .TSX, .INX, .DEX].contains i.mnemonic
  | .Y  => [Mnemonic.LDY, .TAY, .INY, .DEY].contains i.mnemonic
  | .SP => [Mnemonic.TXS, .PHA, .PHP, .PLA, .PLP, .JSR, .RTS, .BRK, .RTI].contains i.mnemonic

/-- The mnemonics that write N and Z by `SetNZ` or `Compare` (R20). -/
def nzMnemonics : List Mnemonic :=
  [.LDA, .LDX, .LDY, .TAX, .TAY, .TXA, .TYA, .TSX, .PLA, .AND, .ORA, .EOR, .ADC, .SBC, .CMP, .CPX,
   .CPY, .INC, .DEC, .INX, .INY, .DEX, .DEY, .ASL, .LSR, .ROL, .ROR]

/-- The mnemonics that write each flag (R20 to R27). -/
def flagWriters : Flag → List Mnemonic
  | .N => nzMnemonics ++ [.BIT, .PLP, .RTI]
  | .Z => nzMnemonics ++ [.BIT, .PLP, .RTI]
  | .V => [.ADC, .SBC, .BIT, .CLV, .PLP, .RTI]
  | .U => [.BRK, .PLP, .RTI]
  | .B => [.PLP, .RTI]
  | .D => [.SED, .CLD, .PLP, .RTI]
  | .I => [.SEI, .CLI, .PLP, .RTI, .BRK]
  | .C => [.ADC, .SBC, .CMP, .CPX, .CPY, .ASL, .LSR, .ROL, .ROR, .SEC, .CLC, .PLP, .RTI]

/-- The read-modify-write mnemonics (R48). -/
def modifyMnemonics : List Mnemonic := [.ASL, .LSR, .ROL, .ROR, .INC, .DEC]

/-- The mnemonics that read a memory operand and write no memory (R67). -/
def readMnemonics : List Mnemonic :=
  [.LDA, .LDX, .LDY, .ADC, .SBC, .CMP, .CPX, .CPY, .AND, .ORA, .EOR, .BIT]

/-- The addresses an instruction stores to, in order: the effective address of a store or a
read-modify-write, or the stack slots of a push. -/
def storeAddrs (i : Instr) (s : State) : List Addr :=
  match i.mnemonic with
  | .STA | .STX | .STY => [effectiveAddress i.operand s]
  | .ASL | .LSR | .ROL | .ROR | .INC | .DEC =>
    if i.mode = .ACC then [] else [effectiveAddress i.operand s]
  | .PHA | .PHP => [stackAddr s.sp]
  | .JSR => [stackAddr s.sp, stackAddr (s.sp - 1)]
  | .BRK => [stackAddr s.sp, stackAddr (s.sp - 1), stackAddr (s.sp - 2)]
  | _ => []

/-! ### Bus accesses -/

/-- A bus access without the byte it moves: `(false, a)` reads `a`, `(true, a)` writes it. -/
def BusAccess.shape : BusAccess → Bool × Addr
  | .read a _  => (false, a)
  | .write a _ => (true, a)

/-- The addresses of an instruction's own bytes, in order, PC wrapping (R58, R81). -/
def instructionAddrs (i : Instr) (pc : Addr) : List Addr :=
  (List.range i.length).map fun k => pc + BitVec.ofNat 16 k

/-- The state `exec` sees in a `step` from `s` that fetched `i`: the call begun and the reads of the
instruction's own bytes made (R58, R81, R147). -/
def State.afterFetch (s : State) (i : Instr) : State :=
  s.beginCall.noteReads (instructionAddrs i s.pc)

/-- The accesses the semantics make after the resolver (R47, R48, R50, R51, R67, R158). -/
def semanticAccesses (i : Instr) (s : State) : List (Bool × Addr) :=
  let ea := effectiveAddress i.operand s
  if i.mnemonic ∈ readMnemonics then
    if i.mode = .IMM then [] else [(false, ea)]
  else if i.mnemonic ∈ modifyMnemonics then
    if i.mode = .ACC then [] else [(false, ea), (true, ea)]
  else
    match i.mnemonic with
    | .PLA | .PLP => [(false, stackAddr (s.sp + 1))]
    | .RTS => [(false, stackAddr (s.sp + 1)), (false, stackAddr (s.sp + 2))]
    | .RTI => [(false, stackAddr (s.sp + 1)), (false, stackAddr (s.sp + 2)),
               (false, stackAddr (s.sp + 3))]
    | .BRK => (storeAddrs i s).map (true, ·) ++
              [(false, Config.irqVector), (false, Config.irqVector + 1)]
    | _ => (storeAddrs i s).map (true, ·)

/-- Starting from memory `m` after the accesses `history` (newest first), a bus that makes the accesses
of the list in order is left with memory `m'`: each byte read is the bus's reply to the accesses
before it, and each write does to memory what the bus lets it do (R41, R43, R47). -/
def Replays (b : Bus) : List BusAccess → Memory → List BusAccess → Memory → Prop
  | _,       m, [],             m' => m' = m
  | history, m, .read a v :: t, m' =>
    v = b.reply m history a ∧ Replays b (.read a v :: history) m t m'
  | history, m, .write a v :: t, m' => Replays b (.write a v :: history) (b.store m a v) t m'

/-! ### Decimal values -/

/-- Both nibbles of a byte are decimal digits. -/
def IsBcd (b : Byte) : Prop := b.toNat % 16 < 10 ∧ b.toNat / 16 < 10

/-- The number a byte of two decimal digits stands for. -/
def bcdValue (b : Byte) : Nat := b.toNat / 16 * 10 + b.toNat % 16

/-! ### What a claim about trace mode looks through -/

/-- A state without the trace setting and the last call's trace (R154). -/
def State.hideTrace (s : State) : State := { s with trace := none, traceEnabled := false }

/-- The next state of an outcome is as the predicate says; `False` for a fault or a refusal. -/
def Answers (o : Outcome) (Q : State → Prop) : Prop := ∃ t, o = .next t ∧ Q t

end Sys2Proof.Machine
end

