-- ==== Sys2Proof/Certificates/Slice0/Obligations.lean ====
section
/-! DEFINITION. The statements about the machine, one `def Obligations.<Name> : Prop` each. A docstring
names the rules of spec/ it formalises; where the spec marks a rule as its own decision (D<n> of
`92_eei_decisions.md`) or as general knowledge, the docstring says so. -/

open Sys2Proof Sys2Proof.Machine

/-! ### Encoding -/

/-- Decoding the encoding of a well-formed instruction gives it back, whatever bytes follow: no
operand bit is dropped (R58, R60, R62, R64; the rows of R62 are general knowledge, G2). -/
def Obligations.DecodeOfEncode : Prop :=
  ∀ (i : Instr) (rest : List Byte), i.wf = true → decode (encode i ++ rest) = .ok i rest

/-- Whatever decodes is well formed and is exactly the encoding of what it decodes to: each list of
bytes has one meaning (R58, R61, R64). -/
def Obligations.EncodeOfDecode : Prop :=
  ∀ (bytes : List Byte) (i : Instr) (rest : List Byte),
    decode bytes = .ok i rest → i.wf = true ∧ bytes = encode i ++ rest

/-- Decoding is total on opcode bytes: three bytes always decode, the opcode byte alone choosing
mnemonic, mode and length, and a list too short for its opcode is rejected by name (R59, R61). -/
def Obligations.EveryOpcodeDecodes : Prop :=
  (∀ (op b c : Byte) (rest : List Byte), ∃ i tail,
      decode (op :: b :: c :: rest) = .ok i tail ∧ i.entry = opcodeEntry op ∧
      tail = (op :: b :: c :: rest).drop (opcodeEntry op).mode.length) ∧
  (∀ op : Byte, 1 < (opcodeEntry op).mode.length → decode [op] = .reject .missingOperand) ∧
  (∀ op b : Byte, 2 < (opcodeEntry op).mode.length → decode [op, b] = .reject .missingOperand) ∧
  decode [] = .reject .noOpcode

/-- The bytes R64 lists are 105, and they are exactly the bytes with the sentinel entry; each decodes
to a one-byte instruction that runs as a two-cycle no-op (R61, R62, R64, R146). That they are exactly
those is derived there: R64 marks the list as the complement of the documented rows of R62, which are
general knowledge (G2). -/
def Obligations.UndocumentedBytesAreSentinel : Prop :=
  undocumentedOpcodes.length = 105 ∧ undocumentedOpcodes.Nodup ∧
  (∀ op, op ∈ undocumentedOpcodes ↔ opcodeEntry op = ⟨.ILLEGAL, .IMP, 2⟩) ∧
  (∀ op, op ∈ undocumentedOpcodes ↔ (opcodeEntry op).mnemonic = .ILLEGAL) ∧
  ∀ op ∈ undocumentedOpcodes,
    (∀ rest, decode (op :: rest) = .ok (.illegal op) rest) ∧
    ∀ s, Answers (exec (.illegal op) s) fun t =>
      t.pc = s.pc + 1 ∧ t.pending = 2 ∧ Frame s t [] [] []

/-- One word of each family, written out from R62 and R65, decodes to its instruction. -/
def Obligations.SampleBytesDecode : Prop :=
  decode [0xBD, 0x34, 0x12] = .ok (.ldaAbx 0x1234) [] ∧
  decode [0x91, 0x10] = .ok (.staIzy 0x10) [] ∧
  decode [0x69, 0x01] = .ok (.adcImm 0x01) [] ∧
  decode [0xE1, 0x20] = .ok (.sbcIzx 0x20) [] ∧
  decode [0x2C, 0x00, 0x30] = .ok (.bitAbs 0x3000) [] ∧
  decode [0x0A] = .ok .aslAcc [] ∧
  decode [0xFE, 0xFF, 0x12] = .ok (.incAbx 0x12FF) [] ∧
  decode [0x9A] = .ok .txs [] ∧
  decode [0x08] = .ok .php [] ∧
  decode [0xD0, 0xFB] = .ok (.bne 0xFB) [] ∧
  decode [0x6C, 0xFF, 0x30] = .ok (.jmpInd 0x30FF) [] ∧
  decode [0x00, 0xEA] = .ok .brk [0xEA] ∧
  decode [0x02] = .ok (.illegal 0x02) []

/-! ### The step machine -/

/-- At an instruction boundary of a powered core, `step` is `exec` of the instruction the bytes at PC
decode to. Before it, `step` clears what the last call returned and records the fetch's reads; after
it, `step` emits the snapshot and takes one cycle off (R147; the decrement is D2). -/
def Obligations.StepRunsDecodedInstruction : Prop :=
  ∀ (s : State) (i : Instr) (rest : List Byte),
    s.powered = true → s.pending = 0 → decode s.fetchWindow = .ok i rest →
    step s = mapNext (finishFetchCall s i) (exec i (s.afterFetch i))

/-- A powered `step` away from a boundary decrements `pending` and does nothing else: no bus access,
no trace, no other change but to the model's own record of accesses (R150; the other state of R150 is
`StepRunsDecodedInstruction`; the record is log 7 and log 16). -/
def Obligations.CountdownStepOnlyCounts : Prop :=
  ∀ s : State, s.powered = true → 0 < s.pending →
    step s = .next
      { s with pending := s.pending - 1, trace := none, accesses := [], past := s.beginCall.past }

/-- Before the first reset `step`, `irq` and `nmi` are refused, and construction leaves the core so,
with the bus, the memory and the trace setting it was given (R7, R35, R37; D12); away from a boundary
a powered core refuses `irq` and `nmi` (R159; D9). -/
def Obligations.CallsTheSpecRefuses : Prop :=
  (∀ s : State, s.powered = false →
    step s = .refused .notPowered ∧ irq s = .refused .notPowered ∧ nmi s = .refused .notPowered) ∧
  (∀ (u : State) (bus : Bus) (m : Memory) (b : Bool),
    (new u bus m b).powered = false ∧ (new u bus m b).bus = bus ∧ (new u bus m b).mem = m ∧
    (new u bus m b).traceEnabled = b) ∧
  (∀ s : State, s.powered = true → 0 < s.pending →
    irq s = .refused .notAtBoundary ∧ nmi s = .refused .notAtBoundary)

/-- Every opcode byte decodes, every instruction executes without raising, every `step` of a powered
core answers a next state whatever bytes stand at PC, and no `step` and no other call of the host
ever answers a fault (R156). -/
def Obligations.EveryInstructionCompletes : Prop :=
  (∀ op b c : Byte, ∃ i rest, decode [op, b, c] = .ok i rest ∧ i.wf = true) ∧
  (∀ (i : Instr) (s : State), ∃ t, exec i s = .next t) ∧
  (∀ s : State, s.powered = true → ∃ t, step s = .next t) ∧
  (∀ (c : HostAction) (s : State) (r : Fault), call c s ≠ .fault r)

/-- An instruction's cycle count is its base cycles, the page penalty and the branch extra; it is
between 2 and 7, and no instruction has both extras (R149, derived there from the rules and the
opcode table; the counts of the rows are general knowledge, G2). -/
def Obligations.CycleCounts : Prop :=
  ∀ (i : Instr) (s : State), ∃ t, exec i s = .next t ∧ t.pending = cyclesOf i s ∧
    2 ≤ t.pending ∧ t.pending ≤ 7 ∧ (resolverExtra i s = 0 ∨ branchCycles i s = 0)

/-- An instruction of n cycles occupies exactly n calls: its first call does all of its work and
leaves n − 1, and the calls after it only count down, to 0 at the next boundary (R147, R152; D2). -/
def Obligations.InstructionOccupiesItsCycles : Prop :=
  ∀ (s : State) (i : Instr) (rest : List Byte),
    s.powered = true → s.pending = 0 → decode s.fetchWindow = .ok i rest →
    ∃ t, step s = .next t ∧ t.pending + 1 = cyclesOf i (s.afterFetch i) ∧
      ∀ k, 0 < k → k ≤ t.pending →
        Host.Core.run core k t =
          .next ({ t with pending := t.pending - k, trace := none, accesses := [],
                          past := t.beginCall.past } : State)

/-- Trace mode and what the last call returned change nothing: two states that differ only in
`traceEnabled`, `trace` and, on a bus without a device, the last call's accesses step to states that
differ only in `traceEnabled` and `trace`, and make the same bus accesses (R154, derived there from
R147 and R153). -/
def Obligations.TraceModeChangesOnlyTrace : Prop :=
  ∀ s₁ s₂ : State, s₁.beginCall.hideTrace = s₂.beginCall.hideTrace →
    mapNext State.hideTrace (step s₁) = mapNext State.hideTrace (step s₂)

/-- The snapshot of a fetch call holds the opcode's address, the bytes read, mnemonic, mode, operand
value and the registers before the fetch; with trace mode off there is none (R153; content D23). `b` is
the byte after the opcode, read after it. -/
def Obligations.TraceSnapshotContent : Prop :=
  ∀ (s : State) (i : Instr) (rest : List Byte),
    s.powered = true → s.pending = 0 → decode s.fetchWindow = .ok i rest →
    let b := (s.noteRead s.pc).byteAt (s.pc + 1)
    ∃ t, step s = .next t ∧
      (s.traceEnabled = false → t.trace = none) ∧
      (s.traceEnabled = true → ∃ v,
        t.trace = some ⟨s.pc, s.fetchWindow.take i.length, i.mnemonic, i.mode, v,
          s.a, s.x, s.y, s.sp, s.p⟩ ∧
        (i.mode = .IMM → v = .byte b) ∧
        (i.mode = .REL → v = .word (s.pc + 2 + sext16 b)) ∧
        (i.mode = .IMP ∨ i.mode = .ACC → v = .none) ∧
        (i.mode ≠ .IMM → i.mode ≠ .REL → i.mode ≠ .IMP → i.mode ≠ .ACC →
          v = .word (effectiveAddress i.operand (s.afterFetch i))))

/-- The bus accesses of a fetch call are the reads of the instruction's own bytes, then the resolver's
pointer reads, then those of the semantics, and no others (R47, R48, R67, R81; the absence of dummy
accesses and the low-byte-first order are D20). -/
def Obligations.BusAccessesInOrder : Prop :=
  ∀ (s : State) (i : Instr) (rest : List Byte),
    s.powered = true → s.pending = 0 → decode s.fetchWindow = .ok i rest →
    ∃ t, step s = .next t ∧
      t.accesses.map BusAccess.shape =
        (instructionAddrs i s.pc ++ pointerReads i.operand (s.afterFetch i)).map (false, ·) ++
          semanticAccesses i (s.afterFetch i)

/-! ### The invariant -/

/-- The invariant holds right after reset, in `State.reset` and after `resetCall` on any state whose
memory is in canonical form, powered or not (R39, R40). -/
def Obligations.ResetMeetsInvariant : Prop :=
  State.reset.Inv ∧ ∀ s : State, s.mem.wf = true → (resetCall s).Inv

/-- Every step keeps the invariant: memory in canonical form, `pending` at most 8, U set (R39, R22;
that U stays 1 is D3 and derived there; that memory is canonical data is the model's, log 1). -/
def Obligations.StepKeepsInvariant : Prop :=
  ∀ s t : State, s.Inv → step s = .next t → t.Inv

/-- Every other action of the host keeps it too: reset, IRQ, NMI and writes to memory (R39). -/
def Obligations.HostActionsKeepInvariant : Prop :=
  ∀ (c : HostAction) (s t : State), c ≠ .step → s.Inv → call c s = .next t → t.Inv

/-! ### Memory -/

/-- Two memories in canonical form that read the same at every address are the same data (R42, R43;
the form is the model's, log 1). -/
def Obligations.MemoryDeterminedByBytes : Prop :=
  ∀ m n : Memory, m.wf = true → n.wf = true →
    (∀ a, a < Config.memorySize → m.read a = n.read a) → m = n

/-- `Push` writes the byte at 0x0100 + SP by one bus write, decrements SP modulo 256, and changes no
other byte or register; `Pull` increments SP modulo 256, reads the byte there by one bus read, and
changes no memory; a `Pull` after a `Push` restores SP and, where memory is RAM, returns the byte (R50,
R51). The clause about a `Pull` after a `Push` is the sentence R51 marks as derived from R50 and R51. -/
def Obligations.StackPrimitives : Prop :=
  (∀ (v : Byte) (s : State), s.mem.wf = true →
    (push v s).sp = s.sp - 1 ∧
    Frame s (push v s) [.SP] [] [0x0100 + zext16 s.sp] ∧ (push v s).pc = s.pc ∧
    (push v s).accesses = s.accesses ++ [.write (0x0100 + zext16 s.sp) v] ∧
    (pull (push v s)).2.sp = s.sp ∧
    (s.bus = Bus.ram →
      (push v s).byteAt (0x0100 + zext16 s.sp) = v ∧ (pull (push v s)).1 = v)) ∧
  (∀ s : State,
    (pull s).1 = s.byteAt (0x0100 + zext16 (s.sp + 1)) ∧ (pull s).2.sp = s.sp + 1 ∧
    Frame s (pull s).2 [.SP] [] [] ∧ (pull s).2.pc = s.pc ∧
    (pull s).2.accesses = s.accesses ++ [.read (0x0100 + zext16 (s.sp + 1)) (pull s).1])

/-! ### Who writes what: rules about all instructions -/

/-- A, X, Y and SP are written only by the instructions R15 and R18 name for each. -/
def Obligations.RegisterWriters : Prop :=
  ∀ (r : Reg) (i : Instr) (s t : State), exec i s = .next t → writesReg r i = false →
    t.reg r = s.reg r

/-- Each flag of P is written only by the mnemonics R20 to R27 name for it: D only by SED, CLD, PLP,
RTI; B only by PLP, RTI; and so on (BRK does not write B or D: D4, D5; TXS writes none: D18). -/
def Obligations.FlagWriters : Prop :=
  ∀ (f : Flag) (i : Instr) (s t : State), exec i s = .next t → i.mnemonic ∉ flagWriters f →
    t.flag f = s.flag f

/-- An instruction changes memory at most at the effective address of a store or read-modify-write,
or in the stack slots it pushes to; every other instruction leaves all memory alone (R47, R50). On
every bus that is said of the cells behind those addresses. -/
def Obligations.MemoryWriters : Prop :=
  ∀ (i : Instr) (s t : State), exec i s = .next t → KeepsMemory s t (storeAddrs i s)

/-- Only a taken branch, JMP, JSR, RTS, RTI and BRK move PC elsewhere than to the next sequential
instruction (R17). -/
def Obligations.PcWriters : Prop :=
  ∀ (i : Instr) (s t : State), exec i s = .next t →
    i.mnemonic ∉ [Mnemonic.JMP, .JSR, .RTS, .RTI, .BRK] → branchCycles i s = 0 →
    t.pc = nextPc i s

/-- Every instruction leaves `cur` at its own opcode-table entry, and `powered`, `traceEnabled` and the
bus as they were (R7, R32, R35, R37). That `ea` ends as the resolver set it (IMP and ACC leave it alone)
is the model's choice (log 4): R31 leaves its value between steps unspecified. That `past` stays until
the next call is the model's own too (log 16). -/
def Obligations.EaAndCurAreOfTheInstruction : Prop :=
  ∀ i s, Answers (exec i s) fun t =>
    t.cur = i.entry ∧ t.ea = effectiveAddress i.operand s ∧
    t.powered = s.powered ∧ t.traceEnabled = s.traceEnabled ∧ t.bus = s.bus ∧ t.past = s.past

/-! ### Addressing modes -/

/-- What the resolver leaves in `ea` and PC in the modes without an index or with ZPX, and the
relative offset (R69 IMM, R70 ZP0, R71 ZPX, R73 ABS, R79 REL), for an instruction at `s.pc`. -/
def Obligations.PlainAddressingModes : Prop :=
  ∀ (i : Instr) (s : State) (b : Byte) (w : Addr),
    (i.operand = .imm b → (resolve i s).ea = s.pc + 1 ∧ (resolve i s).pc = s.pc + 2 ∧
      resolverExtra i s = 0) ∧
    (i.operand = .zp0 b → (resolve i s).ea.toNat = b.toNat ∧ (resolve i s).pc = s.pc + 2 ∧
      resolverExtra i s = 0) ∧
    (i.operand = .zpx b → (resolve i s).ea.toNat = (b.toNat + s.x.toNat) % 256 ∧
      (resolve i s).pc = s.pc + 2 ∧ resolverExtra i s = 0) ∧
    (i.operand = .abs w → (resolve i s).ea = w ∧ (resolve i s).pc = s.pc + 3 ∧
      resolverExtra i s = 0) ∧
    (i.operand = .rel b → (resolve i s).ea.toInt = b.toInt ∧ (resolve i s).pc = s.pc + 2 ∧
      resolverExtra i s = 0)

/-- The indexed and pointer modes: ZPY wraps in page 0 (R72), ABX and ABY wrap at 16 bits (R74, R75),
IZX and IZY take both pointer bytes from page 0 (R77, R78; D22), JMP indirect takes its high byte
from the pointer's own page (R76); each reads the low byte before the high byte (R45; D20). -/
def Obligations.IndexedAddressingModes : Prop :=
  ∀ (i : Instr) (s : State) (b : Byte) (w : Addr),
    (i.operand = .zpy b → (resolve i s).ea.toNat = (b.toNat + s.y.toNat) % 256) ∧
    (i.operand = .abx w → (resolve i s).ea.toNat = (w.toNat + s.x.toNat) % 65536) ∧
    (i.operand = .aby w → (resolve i s).ea.toNat = (w.toNat + s.y.toNat) % 65536) ∧
    (i.operand = .izx b → ∃ lo hi : Addr,
      lo.toNat = (b.toNat + s.x.toNat) % 256 ∧ hi.toNat = (b.toNat + s.x.toNat + 1) % 256 ∧
      (resolve i s).ea.toNat = ((s.noteRead lo).byteAt hi).toNat * 256 + (s.byteAt lo).toNat) ∧
    (i.operand = .izy b → ∃ lo hi : Addr,
      lo.toNat = b.toNat ∧ hi.toNat = (b.toNat + 1) % 256 ∧
      (resolve i s).ea.toNat =
        (((s.noteRead lo).byteAt hi).toNat * 256 + (s.byteAt lo).toNat + s.y.toNat) % 65536) ∧
    (i.operand = .ind w → ∃ hi : Addr,
      hi.toNat = w.toNat / 256 * 256 + (w.toNat + 1) % 256 ∧
      (resolve i s).ea.toNat = ((s.noteRead w).byteAt hi).toNat * 256 + (s.byteAt w).toNat)

/-- The opcodes R62 marks with `+`. -/
def Sys2Proof.Machine.penaltyOpcodes : List Byte :=
  [0x11, 0x19, 0x1D, 0x31, 0x39, 0x3D, 0x51, 0x59, 0x5D, 0x71, 0x79, 0x7D,
   0xB1, 0xB9, 0xBC, 0xBD, 0xBE, 0xD1, 0xD9, 0xDD, 0xF1, 0xF9, 0xFD]

/-- The page penalty: exactly the 23 opcodes R62 marks with `+` can pay it, and one of them pays its one
cycle exactly when the high byte of the effective address differs from that of the address before
indexing (R80; the set is D17). -/
def Obligations.PagePenalty : Prop :=
  penaltyOpcodes.length = 23 ∧
  (∀ (i : Instr) (s : State), i.wf = true → i.row.opcode ∉ penaltyOpcodes → resolverExtra i s = 0) ∧
  (∀ (i : Instr) (s : State) (b : Byte) (w : Addr), i.wf = true → i.row.opcode ∈ penaltyOpcodes →
    resolverExtra i s ≤ 1 ∧
    (i.operand = .abx w →
      (resolverExtra i s = 1 ↔ (resolve i s).ea.toNat / 256 ≠ w.toNat / 256)) ∧
    (i.operand = .aby w →
      (resolverExtra i s = 1 ↔ (resolve i s).ea.toNat / 256 ≠ w.toNat / 256)) ∧
    (i.operand = .izy b →
      (resolverExtra i s = 1 ↔
        (resolve i s).ea.toNat / 256 ≠
          ((s.noteRead (zext16 b)).byteAt (zext16 (b + 1))).toNat)))

/-! ### Loads and stores -/

/-- LDA, LDX, LDY: the register takes the operand, N and Z follow it, nothing else changes but PC, in
every mode (R82 to R84; what each mnemonic loads is D19). -/
def Obligations.LoadsTakeTheOperand : Prop :=
  ∀ i s,
    (i.mnemonic = .LDA → Answers (exec i s) fun t =>
      t.a = memOperand i s ∧ FlagsFollow t (memOperand i s) ∧ t.pc = nextPc i s ∧
      t.pending = i.entry.baseCycles + resolverExtra i s ∧ Frame s t [.A] [.N, .Z] []) ∧
    (i.mnemonic = .LDX → Answers (exec i s) fun t =>
      t.x = memOperand i s ∧ FlagsFollow t (memOperand i s) ∧ t.pc = nextPc i s ∧
      t.pending = i.entry.baseCycles + resolverExtra i s ∧ Frame s t [.X] [.N, .Z] []) ∧
    (i.mnemonic = .LDY → Answers (exec i s) fun t =>
      t.y = memOperand i s ∧ FlagsFollow t (memOperand i s) ∧ t.pc = nextPc i s ∧
      t.pending = i.entry.baseCycles + resolverExtra i s ∧ Frame s t [.Y] [.N, .Z] [])

/-- STA, STX, STY: after the pointer reads the instruction makes one write, of the register at the
effective address, so that where memory is RAM the byte there becomes the register; every other byte,
register and flag stays, and no form takes an extra cycle (R85 to R87; D19). -/
def Obligations.StoresWriteOneByte : Prop :=
  ∀ i s, s.mem.wf = true →
    (i.mnemonic = .STA → Answers (exec i s) fun t =>
      t.accesses = (resolve i s).accesses ++ [.write (effectiveAddress i.operand s) s.a] ∧
      (s.bus = Bus.ram → t.byteAt (effectiveAddress i.operand s) = s.a) ∧ t.pc = nextPc i s ∧
      t.pending = i.entry.baseCycles ∧ Frame s t [] [] [effectiveAddress i.operand s]) ∧
    (i.mnemonic = .STX → Answers (exec i s) fun t =>
      t.accesses = (resolve i s).accesses ++ [.write (effectiveAddress i.operand s) s.x] ∧
      (s.bus = Bus.ram → t.byteAt (effectiveAddress i.operand s) = s.x) ∧ t.pc = nextPc i s ∧
      t.pending = i.entry.baseCycles ∧ Frame s t [] [] [effectiveAddress i.operand s]) ∧
    (i.mnemonic = .STY → Answers (exec i s) fun t =>
      t.accesses = (resolve i s).accesses ++ [.write (effectiveAddress i.operand s) s.y] ∧
      (s.bus = Bus.ram → t.byteAt (effectiveAddress i.operand s) = s.y) ∧ t.pc = nextPc i s ∧
      t.pending = i.entry.baseCycles ∧ Frame s t [] [] [effectiveAddress i.operand s])

/-! ### Arithmetic and compare -/

/-- ADC: N, V, Z come from the binary sum in both modes, V being its signed overflow; A and C are the
binary sum and carry when D is 0 and those of `AdcDecimal` when D is 1 (R89, R90, R92; decimal mode
D14). -/
def Obligations.AdcResult : Prop :=
  ∀ i s, i.mnemonic = .ADC → Answers (exec i s) fun t =>
    let m := memOperand i s
    let c := s.flag .C
    let sum := s.a.toNat + m.toNat + c.toNat
    let signed := s.a.toInt + m.toInt + (c.toNat : Int)
    (s.flag .D = false → t.a.toNat = sum % 256 ∧ (t.flag .C = true ↔ 255 < sum)) ∧
    (s.flag .D = true → t.a = (adcDecimal s.a m c).1 ∧ t.flag .C = (adcDecimal s.a m c).2) ∧
    (t.flag .V = true ↔ signed < -128 ∨ 127 < signed) ∧
    FlagsFollow t (BitVec.ofNat 8 sum) ∧ t.pc = nextPc i s ∧
    t.pending = i.entry.baseCycles + resolverExtra i s ∧ Frame s t [.A] [.N, .V, .Z, .C] []

/-- SBC: the four flags come from the binary difference A − M − (1 − C) in both modes, C being "no
borrow" and V the signed overflow; A is that difference when D is 0 and `SbcDecimal` when D is 1
(R91, R93; D15). -/
def Obligations.SbcResult : Prop :=
  ∀ i s, i.mnemonic = .SBC → Answers (exec i s) fun t =>
    let m := memOperand i s
    let c := s.flag .C
    let diff := (s.a.toNat : Int) - (m.toNat : Int) - (1 - (c.toNat : Int))
    let signed := s.a.toInt - m.toInt - (1 - (c.toNat : Int))
    (s.flag .D = false → (t.a.toNat : Int) = diff % 256) ∧
    (s.flag .D = true → t.a = sbcDecimal s.a m c) ∧
    (t.flag .C = true ↔ 0 ≤ diff) ∧
    (t.flag .V = true ↔ signed < -128 ∨ 127 < signed) ∧
    FlagsFollow t (BitVec.ofInt 8 diff) ∧ t.pc = nextPc i s ∧
    t.pending = i.entry.baseCycles + resolverExtra i s ∧ Frame s t [.A] [.N, .V, .Z, .C] []

/-- On decimal digits `AdcDecimal` adds decimally: the result is two decimal digits, and with the
carry as hundreds it is the sum of the two numbers and the carry in (R90; the algorithm is D14). -/
def Obligations.AdcDecimalAddsDecimals : Prop :=
  ∀ (a m : Byte) (c : Bool), IsBcd a → IsBcd m →
    IsBcd (adcDecimal a m c).1 ∧
    bcdValue (adcDecimal a m c).1 + 100 * (adcDecimal a m c).2.toNat =
      bcdValue a + bcdValue m + c.toNat

/-- On decimal digits `SbcDecimal` subtracts decimally modulo 100, and the binary carry R93 puts in C
is "no decimal borrow" (R91, R93; the algorithm is D15). -/
def Obligations.SbcDecimalSubtractsDecimals : Prop :=
  ∀ (a m : Byte) (c : Bool), IsBcd a → IsBcd m →
    IsBcd (sbcDecimal a m c) ∧
    (bcdValue (sbcDecimal a m c) : Int) =
      ((bcdValue a : Int) - (bcdValue m : Int) - (1 - (c.toNat : Int))) % 100 ∧
    ((addBinary a (m ^^^ 0xFF) c).carry = true ↔ bcdValue m + (1 - c.toNat) ≤ bcdValue a)

/-- CMP, CPX, CPY: C is the unsigned `register >= M`, Z is equality, N is bit 7 of the masked
difference; V, D and the registers stay, whatever D holds (R94; R95 to R97 say which register each
compares; the base cycles are R62's, general knowledge, G2, and the penalty CMP alone pays is R80's,
D17). -/
def Obligations.CompareSetsCarryZeroNegative : Prop :=
  ∀ (i : Instr) (s : State),
    (i.mnemonic = .CMP → Answers (exec i s) fun t =>
      (t.flag .C = true ↔ (memOperand i s).toNat ≤ s.a.toNat) ∧
      (t.flag .Z = true ↔ s.a = memOperand i s) ∧
      (t.flag .N = true ↔ 128 ≤ (s.a.toNat + 256 - (memOperand i s).toNat) % 256) ∧
      t.pc = nextPc i s ∧ t.pending = i.entry.baseCycles + resolverExtra i s ∧
      Frame s t [] [.N, .Z, .C] []) ∧
    (i.mnemonic = .CPX → Answers (exec i s) fun t =>
      (t.flag .C = true ↔ (memOperand i s).toNat ≤ s.x.toNat) ∧
      (t.flag .Z = true ↔ s.x = memOperand i s) ∧
      (t.flag .N = true ↔ 128 ≤ (s.x.toNat + 256 - (memOperand i s).toNat) % 256) ∧
      t.pc = nextPc i s ∧ t.pending = i.entry.baseCycles ∧ Frame s t [] [.N, .Z, .C] []) ∧
    (i.mnemonic = .CPY → Answers (exec i s) fun t =>
      (t.flag .C = true ↔ (memOperand i s).toNat ≤ s.y.toNat) ∧
      (t.flag .Z = true ↔ s.y = memOperand i s) ∧
      (t.flag .N = true ↔ 128 ≤ (s.y.toNat + 256 - (memOperand i s).toNat) % 256) ∧
      t.pc = nextPc i s ∧ t.pending = i.entry.baseCycles ∧ Frame s t [] [.N, .Z, .C] [])

/-! ### Logic, shifts, increments -/

/-- AND, ORA, EOR combine A and the operand bit by bit, and N and Z follow the result (R98 to R100;
D19). -/
def Obligations.LogicCombinesBits : Prop :=
  ∀ i s,
    (i.mnemonic = .AND → Answers (exec i s) fun t =>
      (∀ k, t.a.getLsbD k = (s.a.getLsbD k && (memOperand i s).getLsbD k)) ∧ FlagsFollow t t.a ∧
      t.pc = nextPc i s ∧ t.pending = i.entry.baseCycles + resolverExtra i s ∧
      Frame s t [.A] [.N, .Z] []) ∧
    (i.mnemonic = .ORA → Answers (exec i s) fun t =>
      (∀ k, t.a.getLsbD k = (s.a.getLsbD k || (memOperand i s).getLsbD k)) ∧ FlagsFollow t t.a ∧
      t.pc = nextPc i s ∧ t.pending = i.entry.baseCycles + resolverExtra i s ∧
      Frame s t [.A] [.N, .Z] []) ∧
    (i.mnemonic = .EOR → Answers (exec i s) fun t =>
      (∀ k, t.a.getLsbD k = (s.a.getLsbD k ^^ (memOperand i s).getLsbD k)) ∧ FlagsFollow t t.a ∧
      t.pc = nextPc i s ∧ t.pending = i.entry.baseCycles + resolverExtra i s ∧
      Frame s t [.A] [.N, .Z] [])

/-- BIT: Z from A and the operand, N and V from bits 7 and 6 of the operand; A stays (R101; D19). -/
def Obligations.BitTestsMemory : Prop :=
  ∀ i s, i.mnemonic = .BIT → Answers (exec i s) fun t =>
    (t.flag .Z = true ↔ s.a &&& memOperand i s = 0) ∧
    t.flag .N = (memOperand i s).getLsbD 7 ∧ t.flag .V = (memOperand i s).getLsbD 6 ∧
    t.pc = nextPc i s ∧ t.pending = i.entry.baseCycles ∧ Frame s t [] [.N, .V, .Z] []

/-- What a shift or rotate makes of the byte `v`: the byte `r` it writes, and C; `c` is the carry
before (R103 to R106). -/
def Sys2Proof.Machine.ShiftsTo (m : Mnemonic) (v r : Byte) (c carry : Bool) : Prop :=
  match m with
  | .ASL => (∀ k, k < 8 → r.getLsbD k = (decide (0 < k) && v.getLsbD (k - 1))) ∧
            carry = v.getLsbD 7
  | .LSR => (∀ k, k < 8 → r.getLsbD k = v.getLsbD (k + 1)) ∧ carry = v.getLsbD 0
  | .ROL => (∀ k, k < 8 → r.getLsbD k = if k = 0 then c else v.getLsbD (k - 1)) ∧
            carry = v.getLsbD 7
  | .ROR => (∀ k, k < 8 → r.getLsbD k = if k = 7 then c else v.getLsbD (k + 1)) ∧
            carry = v.getLsbD 0
  | _    => False

/-- ASL, LSR, ROL, ROR on the accumulator: each bit of the result, C the bit shifted out, N and Z of
the result; no memory changes (R102 to R106; N and Z are D19). -/
def Obligations.ShiftsOnAccumulator : Prop :=
  ∀ i s, i.mnemonic ∈ [Mnemonic.ASL, .LSR, .ROL, .ROR] → i.mode = .ACC →
    Answers (exec i s) fun t =>
      ShiftsTo i.mnemonic s.a t.a (s.flag .C) (t.flag .C) ∧ FlagsFollow t t.a ∧
      t.pc = nextPc i s ∧ t.pending = 2 ∧ Frame s t [.A] [.N, .Z, .C] []

/-- ASL, LSR, ROL, ROR on memory: one read of the byte at the effective address and one write of the
shifted byte `r` there, with C and the flags as on the accumulator; the registers and every other byte
stay, and no form takes an extra cycle (R48, R102 to R106; D17, D19, D20). -/
def Obligations.ShiftsOnMemory : Prop :=
  ∀ i s, i.mnemonic ∈ [Mnemonic.ASL, .LSR, .ROL, .ROR] → i.mode ≠ .ACC → s.mem.wf = true →
    Answers (exec i s) fun t => ∃ r : Byte,
      ShiftsTo i.mnemonic (memOperand i s) r (s.flag .C) (t.flag .C) ∧
      FlagsFollow t r ∧ ModifiesOperand i s t r ∧ t.pc = nextPc i s ∧
      t.pending = i.entry.baseCycles ∧
      Frame s t [] [.N, .Z, .C] [effectiveAddress i.operand s]

/-- INC and DEC: the byte at the effective address goes up or down by 1 modulo 256, by one read and one
write, N and Z follow it, C and V stay, whatever D holds (R48, R107, R108; D19, D20). -/
def Obligations.IncrementDecrementMemory : Prop :=
  ∀ i s, s.mem.wf = true →
    (i.mnemonic = .INC → Answers (exec i s) fun t => ∃ r : Byte,
      r.toNat = ((memOperand i s).toNat + 1) % 256 ∧
      FlagsFollow t r ∧ ModifiesOperand i s t r ∧ t.pc = nextPc i s ∧
      t.pending = i.entry.baseCycles ∧ Frame s t [] [.N, .Z] [effectiveAddress i.operand s]) ∧
    (i.mnemonic = .DEC → Answers (exec i s) fun t => ∃ r : Byte,
      r.toNat = ((memOperand i s).toNat + 255) % 256 ∧
      FlagsFollow t r ∧ ModifiesOperand i s t r ∧ t.pc = nextPc i s ∧
      t.pending = i.entry.baseCycles ∧ Frame s t [] [.N, .Z] [effectiveAddress i.operand s])

/-- INX, INY, DEX, DEY: the register goes up or down by 1 modulo 256 and N and Z follow it (R109 to
R112; D19). -/
def Obligations.IncrementDecrementRegisters : Prop :=
  ∀ s : State,
    (Answers (exec .inx s) fun t => t.x.toNat = (s.x.toNat + 1) % 256 ∧ FlagsFollow t t.x ∧
      t.pc = s.pc + 1 ∧ t.pending = 2 ∧ Frame s t [.X] [.N, .Z] []) ∧
    (Answers (exec .iny s) fun t => t.y.toNat = (s.y.toNat + 1) % 256 ∧ FlagsFollow t t.y ∧
      t.pc = s.pc + 1 ∧ t.pending = 2 ∧ Frame s t [.Y] [.N, .Z] []) ∧
    (Answers (exec .dex s) fun t => t.x.toNat = (s.x.toNat + 255) % 256 ∧ FlagsFollow t t.x ∧
      t.pc = s.pc + 1 ∧ t.pending = 2 ∧ Frame s t [.X] [.N, .Z] []) ∧
    (Answers (exec .dey s) fun t => t.y.toNat = (s.y.toNat + 255) % 256 ∧ FlagsFollow t t.y ∧
      t.pc = s.pc + 1 ∧ t.pending = 2 ∧ Frame s t [.Y] [.N, .Z] [])

/-- TAX, TAY, TXA, TYA, TSX copy a register and N and Z follow it; TXS copies X to SP and writes no
flag (R113 to R118; D18, D19). -/
def Obligations.TransfersCopyRegisters : Prop :=
  ∀ s : State,
    (Answers (exec .tax s) fun t => t.x = s.a ∧ FlagsFollow t s.a ∧ t.pc = s.pc + 1 ∧
      t.pending = 2 ∧ Frame s t [.X] [.N, .Z] []) ∧
    (Answers (exec .tay s) fun t => t.y = s.a ∧ FlagsFollow t s.a ∧ t.pc = s.pc + 1 ∧
      t.pending = 2 ∧ Frame s t [.Y] [.N, .Z] []) ∧
    (Answers (exec .txa s) fun t => t.a = s.x ∧ FlagsFollow t s.x ∧ t.pc = s.pc + 1 ∧
      t.pending = 2 ∧ Frame s t [.A] [.N, .Z] []) ∧
    (Answers (exec .tya s) fun t => t.a = s.y ∧ FlagsFollow t s.y ∧ t.pc = s.pc + 1 ∧
      t.pending = 2 ∧ Frame s t [.A] [.N, .Z] []) ∧
    (Answers (exec .tsx s) fun t => t.x = s.sp ∧ FlagsFollow t s.sp ∧ t.pc = s.pc + 1 ∧
      t.pending = 2 ∧ Frame s t [.X] [.N, .Z] []) ∧
    (Answers (exec .txs s) fun t => t.sp = s.x ∧ t.pc = s.pc + 1 ∧ t.pending = 2 ∧
      Frame s t [.SP] [] [])

/-- CLC, SEC, CLI, SEI, CLD, SED, CLV write one flag each and nothing else (R119 to R125; D19). -/
def Obligations.FlagInstructionsWriteOneFlag : Prop :=
  ∀ s : State, ∀ q ∈ [(Instr.clc, Flag.C, false), (.sec, .C, true), (.cli, .I, false),
      (.sei, .I, true), (.cld, .D, false), (.sed, .D, true), (.clv, .V, false)],
    Answers (exec q.1 s) fun t => t.flag q.2.1 = q.2.2 ∧ t.pc = s.pc + 1 ∧ t.pending = 2 ∧
      Frame s t [] [q.2.1] []

/-! ### Stack instructions -/

/-- PHA pushes A; PHP pushes P with B and U forced to 1 and leaves P itself alone (R126, R127; the base
cycles are R62's, general knowledge, G2). -/
def Obligations.PushInstructions : Prop :=
  encode .pha = [0x48] ∧ encode .php = [0x08] ∧
  ∀ s : State, s.mem.wf = true →
    (Answers (exec .pha s) fun t =>
      t.accesses = s.accesses ++ [.write (stackAddr s.sp) s.a] ∧
      (s.bus = Bus.ram → t.byteAt (stackAddr s.sp) = s.a) ∧ t.sp = s.sp - 1 ∧
      t.pc = s.pc + 1 ∧ t.pending = 3 ∧ Frame s t [.SP] [] [stackAddr s.sp]) ∧
    (Answers (exec .php s) fun t =>
      t.accesses = s.accesses ++ [.write (stackAddr s.sp) (s.p ||| 0x30)] ∧
      (s.bus = Bus.ram → t.byteAt (stackAddr s.sp) = s.p ||| 0x30) ∧ t.sp = s.sp - 1 ∧
      t.p = s.p ∧ t.pc = s.pc + 1 ∧ t.pending = 3 ∧ Frame s t [.SP] [] [stackAddr s.sp])

/-- PLA pulls A, and N and Z follow it; PLP pulls P with U forced to 1 and every other bit verbatim,
B included (R128, R129; D3, D19). -/
def Obligations.PullInstructions : Prop :=
  ∀ s : State,
    (Answers (exec .pla s) fun t => t.a = s.byteAt (stackAddr (s.sp + 1)) ∧ FlagsFollow t t.a ∧
      t.sp = s.sp + 1 ∧ t.pc = s.pc + 1 ∧ t.pending = 4 ∧ Frame s t [.A, .SP] [.N, .Z] []) ∧
    (Answers (exec .plp s) fun t => t.p = s.byteAt (stackAddr (s.sp + 1)) ||| 0x20 ∧
      t.sp = s.sp + 1 ∧ t.pc = s.pc + 1 ∧ t.pending = 4 ∧ Frame s t [.SP] allFlags [])

/-- PHP then PLP restores every bit of P but B and U, which become 1, and SP, as long as what runs
between leaves SP and the pushed byte alone, with the stack in RAM (R127, R129; "PHP then PLP restores
STATUS except possibly B/U bits", KG6502 §8, in `95_test_vectors.md` W3; D3). -/
def Obligations.PlpAfterPhp : Prop :=
  ∀ s t u : State, s.bus = Bus.ram → s.mem.wf = true → exec .php s = .next t →
    u.sp = t.sp → u.byteAt (stackAddr s.sp) = t.byteAt (stackAddr s.sp) →
    Answers (exec .plp u) fun v => v.p = s.p ||| 0x30 ∧ v.sp = s.sp

/-! ### Branches, jumps, subroutines -/

/-- The eight branches: taken exactly when the tested flag has the value R131 gives; a branch not
taken continues at the next instruction in 2 cycles; a taken one goes to next instruction + signed
offset, modulo 65536, in 3 cycles, or 4 if that is in another page than the next instruction
(R130 to R139; the flags are D19, the "old PC" is D21). -/
def Obligations.BranchesTestOneFlag : Prop :=
  ∀ (s : State) (b : Byte),
    ∀ q ∈ [(Instr.bcc b, Flag.C, false), (.bcs b, .C, true), (.beq b, .Z, true),
        (.bne b, .Z, false), (.bmi b, .N, true), (.bpl b, .N, false), (.bvc b, .V, false),
        (.bvs b, .V, true)],
      Answers (exec q.1 s) fun t =>
        Frame s t [] [] [] ∧
        (s.flag q.2.1 ≠ q.2.2 → t.pc = s.pc + 2 ∧ t.pending = 2) ∧
        (s.flag q.2.1 = q.2.2 →
          (t.pc.toNat : Int) = ((s.pc.toNat : Int) + 2 + b.toInt) % 65536 ∧
          t.pending = if t.pc.toNat / 256 = (s.pc + 2).toNat / 256 then 3 else 4)

/-- JMP goes to its operand, or to the word its pointer holds, and writes nothing else (R140); the
address of the high byte never leaves the pointer's page (R76). That the high byte is read after the
low byte is the model's choice (log 14), the one R45 makes by its decision D20; the opcodes and base
cycles are R62's, general knowledge (G2). -/
def Obligations.JumpsGoToTheEffectiveAddress : Prop :=
  ∀ (w : Addr) (s : State),
    encode (.jmpAbs w) = [0x4C, loByte w, hiByte w] ∧
    encode (.jmpInd w) = [0x6C, loByte w, hiByte w] ∧
    (Answers (exec (.jmpAbs w) s) fun t => t.pc = w ∧ t.pending = 3 ∧ Frame s t [] [] []) ∧
    (Answers (exec (.jmpInd w) s) fun t =>
      t.pc = joinBytes ((s.noteRead w).byteAt (joinBytes (hiByte w) (loByte w + 1)))
        (s.byteAt w) ∧
      t.pending = 5 ∧ Frame s t [] [] [])

/-- JSR pushes the address of its own last byte, high byte first, and jumps; SP goes down by 2 and
only the two stack slots change (R141's pseudocode). Of the JSR at 0xFFFE, whose operand bytes straddle
0xFFFF, it says 0x0000 is pushed, where R141's corner case says 0x0001: that is the model's choice
(log 17). -/
def Obligations.JsrPushesReturnAddress : Prop :=
  ∀ (w : Addr) (s : State), s.mem.wf = true →
    encode (.jsr w) = [0x20, loByte w, hiByte w] ∧
    Answers (exec (.jsr w) s) fun t =>
      t.accesses = s.accesses ++ [.write (stackAddr s.sp) (hiByte (s.pc + 2)),
        .write (stackAddr (s.sp - 1)) (loByte (s.pc + 2))] ∧
      (s.bus = Bus.ram → t.byteAt (stackAddr s.sp) = hiByte (s.pc + 2) ∧
        t.byteAt (stackAddr (s.sp - 1)) = loByte (s.pc + 2)) ∧
      t.sp = s.sp - 2 ∧ t.pc = w ∧ t.pending = 6 ∧
      Frame s t [.SP] [] [stackAddr s.sp, stackAddr (s.sp - 1)]

/-- RTS pulls low then high byte and goes to that address plus 1, modulo 65536. After a JSR, with the
stack in RAM, it returns to the instruction after the JSR with SP restored, whatever the subroutine did,
as long as SP and the two return-address bytes are as JSR left them (R142; the second clause is the
sentence R142 marks as derived from R141, R142 and R51). -/
def Obligations.RtsPullsReturnAddress : Prop :=
  encode .rts = [0x60] ∧
  (∀ s : State,
    Answers (exec .rts s) fun t =>
      t.pc.toNat =
        (((s.noteRead (stackAddr (s.sp + 1))).byteAt (stackAddr (s.sp + 2))).toNat * 256 +
          (s.byteAt (stackAddr (s.sp + 1))).toNat + 1) % 65536 ∧
      t.sp = s.sp + 2 ∧ t.pending = 6 ∧ Frame s t [.SP] [] []) ∧
  (∀ (w : Addr) (s t u : State), s.bus = Bus.ram → u.bus = Bus.ram → s.mem.wf = true →
    exec (.jsr w) s = .next t →
    u.sp = t.sp → (∀ a ∈ [stackAddr s.sp, stackAddr (s.sp - 1)], u.byteAt a = t.byteAt a) →
    Answers (exec .rts u) fun v => v.pc = s.pc + 3 ∧ v.sp = s.sp)

/-! ### System instructions, interrupts, reset -/

/-- BRK pushes BRK address + 2 and P with B and U set, sets I and U, keeps B and D, and goes where the
two bytes it reads at the IRQ/BRK vector after the pushes point; it is not masked by I (R143, R158;
D4, D5, D6; the order of the vector's two reads is D20). Where memory is RAM the pushed bytes stand in the stack and the vector is as before. -/
def Obligations.BrkEntersThroughVector : Prop :=
  ∀ s : State, s.mem.wf = true →
    Answers (exec .brk s) fun t =>
      (∃ lo hi : Byte, t.pc = joinBytes hi lo ∧
        t.accesses = s.accesses ++ [.write (stackAddr s.sp) (hiByte (s.pc + 2)),
          .write (stackAddr (s.sp - 1)) (loByte (s.pc + 2)),
          .write (stackAddr (s.sp - 2)) (s.p ||| 0x30), .read 0xFFFE lo, .read 0xFFFF hi]) ∧
      (s.bus = Bus.ram →
        t.byteAt (stackAddr s.sp) = hiByte (s.pc + 2) ∧
        t.byteAt (stackAddr (s.sp - 1)) = loByte (s.pc + 2) ∧
        t.byteAt (stackAddr (s.sp - 2)) = s.p ||| 0x30 ∧
        t.pc = joinBytes (s.byteAt 0xFFFF) (s.byteAt 0xFFFE)) ∧
      t.sp = s.sp - 3 ∧ t.flag .I = true ∧ t.flag .U = true ∧ t.pending = 7 ∧
      Frame s t [.SP] [.I, .U] [stackAddr s.sp, stackAddr (s.sp - 1), stackAddr (s.sp - 2)]

/-- RTI pulls P (B verbatim, U as 1), then PC low and high with no adjustment (R144; D3, D7). -/
def Obligations.RtiRestoresStatusAndPc : Prop :=
  ∀ s : State,
    let s₁ := s.noteRead (stackAddr (s.sp + 1))
    let s₂ := s₁.noteRead (stackAddr (s.sp + 2))
    Answers (exec .rti s) fun t =>
      t.p = s.byteAt (stackAddr (s.sp + 1)) ||| 0x20 ∧
      t.pc = joinBytes (s₂.byteAt (stackAddr (s.sp + 3))) (s₁.byteAt (stackAddr (s.sp + 2))) ∧
      t.sp = s.sp + 3 ∧ t.pending = 6 ∧ Frame s t [.SP] allFlags []

/-- RTI undoes an entry. After BRK it resumes at BRK address + 2, after a taken IRQ or an NMI at the
instruction that would have run next; SP comes back, and P with U as 1 and B as pushed: 1 after BRK, 0
after IRQ and NMI. `u` is any state in which SP and the three pushed bytes are as the entry left
them, with the stack in RAM (R162, R164; derived from R143, R144, R158; D3, D6, D7). -/
def Obligations.RtiUndoesEntry : Prop :=
  ∀ s t u : State, s.bus = Bus.ram → u.bus = Bus.ram → s.mem.wf = true →
    u.sp = t.sp →
    (∀ a ∈ [stackAddr s.sp, stackAddr (s.sp - 1), stackAddr (s.sp - 2)],
      u.byteAt a = t.byteAt a) →
    (exec .brk s = .next t →
      Answers (exec .rti u) fun v => v.pc = s.pc + 2 ∧ v.sp = s.sp ∧ v.p = s.p ||| 0x30) ∧
    (nmi s = .next t ∨ (irq s = .next t ∧ s.flag .I = false) →
      Answers (exec .rti u) fun v => v.pc = s.pc ∧ v.sp = s.sp ∧ v.p = (s.p &&& 0xEF) ||| 0x20)

/-- NOP takes 2 cycles and only advances PC: it makes no access and writes no register and no flag
(R145; that it does is general knowledge, G6). -/
def Obligations.NopOnlyAdvances : Prop :=
  ∀ s : State, exec .nop s =
    .next { s with pc := s.pc + 1, pending := 2, cur := ⟨.NOP, .IMP, 2⟩ }

/-- Every undocumented byte runs as a one-byte, two-cycle no-op: `cur` reports ILLEGAL, PC advances by
1, and nothing else changes; no access is made beside the fetch of the opcode (R146). -/
def Obligations.IllegalIsNoOp : Prop :=
  ∀ (op : Byte) (s : State), (Instr.illegal op).wf = true →
    encode (.illegal op) = [op] ∧
    exec (.illegal op) s =
      .next { s with pc := s.pc + 1, pending := 2, cur := ⟨.ILLEGAL, .IMP, 2⟩ }

/-- `irq()` at a boundary: with I set it changes nothing (only the record of the last call is cleared);
with I clear it pushes PC and P with B as 0 and U as 1, sets I and U, goes where the two bytes it then
reads at 0xFFFE point, and takes 7 cycles (R158, R160; D4, D8, D10; the order of the vector's two
reads is D20). -/
def Obligations.IrqIsMaskable : Prop :=
  ∀ s : State, s.powered = true → s.pending = 0 → s.mem.wf = true →
    (s.flag .I = true → irq s = .next
      { s with trace := none, accesses := [], past := s.beginCall.past }) ∧
    (s.flag .I = false → Answers (irq s) fun t =>
      (∃ lo hi : Byte, t.pc = joinBytes hi lo ∧
        t.accesses = [.write (stackAddr s.sp) (hiByte s.pc),
          .write (stackAddr (s.sp - 1)) (loByte s.pc),
          .write (stackAddr (s.sp - 2)) ((s.p &&& 0xEF) ||| 0x20), .read 0xFFFE lo, .read 0xFFFF hi]) ∧
      (s.bus = Bus.ram →
        t.byteAt (stackAddr s.sp) = hiByte s.pc ∧ t.byteAt (stackAddr (s.sp - 1)) = loByte s.pc ∧
        t.byteAt (stackAddr (s.sp - 2)) = (s.p &&& 0xEF) ||| 0x20 ∧
        t.pc = joinBytes (s.byteAt 0xFFFF) (s.byteAt 0xFFFE)) ∧
      t.sp = s.sp - 3 ∧ t.flag .I = true ∧ t.flag .U = true ∧ t.pending = 7 ∧ t.trace = none ∧
      Frame s t [.SP] [.I, .U] [stackAddr s.sp, stackAddr (s.sp - 1), stackAddr (s.sp - 2)])

/-- `nmi()` at a boundary is taken whatever I holds, pushes as `irq()` does, goes where the two bytes it
then reads at 0xFFFA point, and takes 7 cycles (R158, R161; D4, D8; the order of the vector's two
reads is D20). -/
def Obligations.NmiIsNotMaskable : Prop :=
  ∀ s : State, s.powered = true → s.pending = 0 → s.mem.wf = true →
    Answers (nmi s) fun t =>
      (∃ lo hi : Byte, t.pc = joinBytes hi lo ∧
        t.accesses = [.write (stackAddr s.sp) (hiByte s.pc),
          .write (stackAddr (s.sp - 1)) (loByte s.pc),
          .write (stackAddr (s.sp - 2)) ((s.p &&& 0xEF) ||| 0x20), .read 0xFFFA lo, .read 0xFFFB hi]) ∧
      (s.bus = Bus.ram →
        t.byteAt (stackAddr s.sp) = hiByte s.pc ∧ t.byteAt (stackAddr (s.sp - 1)) = loByte s.pc ∧
        t.byteAt (stackAddr (s.sp - 2)) = (s.p &&& 0xEF) ||| 0x20 ∧
        t.pc = joinBytes (s.byteAt 0xFFFB) (s.byteAt 0xFFFA)) ∧
      t.sp = s.sp - 3 ∧ t.flag .I = true ∧ t.flag .U = true ∧ t.pending = 7 ∧ t.trace = none ∧
      Frame s t [.SP] [.I, .U] [stackAddr s.sp, stackAddr (s.sp - 1), stackAddr (s.sp - 2)]

/-- `reset()`, from any state, powered or not: A, X, Y are 0, SP is 0xFF, P is 0x24, PC is the word at
the reset vector, `pending` is 8, the core is powered; memory, bus and `cur` are untouched, and the only
bus accesses are the reads of 0xFFFC and 0xFFFD (R172, R173; the zero flags are D11, the access list
D13, its order D20). -/
def Obligations.ResetSequence : Prop :=
  ∀ s : State,
    let t := resetCall s
    let lo := s.byteAt 0xFFFC
    let hi := (s.beginCall.noteRead 0xFFFC).byteAt 0xFFFD
    t.a = 0 ∧ t.x = 0 ∧ t.y = 0 ∧ t.sp = 0xFF ∧ t.p = 0x24 ∧
    t.pc = joinBytes hi lo ∧ t.pending = 8 ∧ t.powered = true ∧
    t.mem = s.mem ∧ t.bus = s.bus ∧ t.cur = s.cur ∧ t.traceEnabled = s.traceEnabled ∧
    t.trace = none ∧ t.accesses = [.read 0xFFFC lo, .read 0xFFFD hi]

/-- The eight calls after a reset count down with no bus access, and the ninth runs the instruction
the reset vector points to (R172; the count is with D2). -/
def Obligations.NinthStepAfterResetFetches : Prop :=
  ∀ (s : State) (i : Instr) (rest : List Byte),
    let r : State := { resetCall s with
      pending := 0, trace := none, accesses := [], past := (resetCall s).beginCall.past }
    Host.Core.run core 8 (resetCall s) = .next r ∧
    (decode r.fetchWindow = .ok i rest →
      Host.Core.run core 9 (resetCall s) =
        mapNext (finishFetchCall r i) (exec i (r.afterFetch i)))

/-! ### The bus -/

/-- What the two callbacks do, on every bus (R41, R43, R47): RAM returns the last byte written to it,
by whichever address reaches it; ROM ignores writes; a device answers by the accesses before the read
and takes no byte of memory; every access is recorded. The default bus is RAM everywhere (D1); the
form of a bus is the model's (log 16), and so is what each kind of place does with a write. -/
def Obligations.BusAnswersReads : Prop :=
  (∀ a, Bus.ram.place a = .ram a) ∧
  ∀ (s : State) (a : Addr) (v : Byte),
    (memRead a s).2.accesses = s.accesses ++ [.read a (memRead a s).1] ∧
    (memRead a s).2.mem = s.mem ∧
    (memWrite a v s).accesses = s.accesses ++ [.write a v] ∧
    (∀ c, s.bus.place a = .ram c → s.mem.wf = true →
      (memRead a s).1 = s.mem.read c.toNat ∧
      (∀ b, s.bus.place b = .ram c → (memRead b (memWrite a v s)).1 = v) ∧
      (∀ k : Addr, k ≠ c → (memWrite a v s).mem.read k.toNat = s.mem.read k.toNat)) ∧
    (∀ c, s.bus.place a = .rom c →
      (memRead a s).1 = s.mem.read c.toNat ∧ (memWrite a v s).mem = s.mem) ∧
    (∀ id x, s.bus.place a = .device id x →
      (memRead a s).1 = Config.deviceRead id (s.accesses.reverse ++ s.past) x ∧
      (memWrite a v s).mem = s.mem)

/-- The record of accesses accounts for all a call does with memory: each byte read is the bus's reply
to the accesses before it, and memory changes by the recorded writes alone, for an instruction and for
each call of the core (R41, R43, R47). No call of the host, its own writes included, changes the
parameters `Bus` and `trace_enabled` (R7, R37). -/
def Obligations.AccessLogIsConsistent : Prop :=
  (∀ (i : Instr) (s t : State), exec i s = .next t →
    ∃ l, t.accesses = s.accesses ++ l ∧ Replays s.bus s.history s.mem l t.mem) ∧
  (∀ c ∈ [HostAction.step, .reset, .irq, .nmi], ∀ s t : State, call c s = .next t →
    Replays s.bus s.beginCall.history s.mem t.accesses t.mem) ∧
  (∀ (c : HostAction) (s t : State), call c s = .next t →
    t.bus = s.bus ∧ t.traceEnabled = s.traceEnabled)
end

