-- ==== Sys2Proof/Laws/Bytes.lean ====
section
/-! SUPPORT. The byte and address helpers as numbers: splitting, joining, extending. -/

namespace Sys2Proof

/-- A joined word as a number. -/
theorem joinBytes_toNat (h l : Byte) : (joinBytes h l).toNat = h.toNat * 256 + l.toNat := by
  rw [joinBytes, BitVec.toNat_append, ← Nat.shiftLeft_add_eq_or_of_lt l.isLt, Nat.shiftLeft_eq]

/-- The high byte is the page number. -/
theorem hiByte_toNat (w : Addr) : (hiByte w).toNat = w.toNat / 256 := by
  have := w.isLt
  simp only [hiByte, BitVec.extractLsb'_toNat, Nat.shiftRight_eq_div_pow]
  omega

/-- The low byte is the offset in the page. -/
theorem loByte_toNat (w : Addr) : (loByte w).toNat = w.toNat % 256 := by
  simp [loByte]

/-- Two addresses are in one page exactly when their high bytes agree. -/
theorem hiByte_eq_iff (a w : Addr) : hiByte a = hiByte w ↔ a.toNat / 256 = w.toNat / 256 := by
  rw [← hiByte_toNat, ← hiByte_toNat]
  exact BitVec.toNat_inj.symm

/-- Joining the two bytes of a word gives it back. -/
theorem joinBytes_hi_lo (w : Addr) : joinBytes (hiByte w) (loByte w) = w := by
  apply BitVec.eq_of_toNat_eq
  rw [joinBytes_toNat, hiByte_toNat, loByte_toNat]
  omega

/-- The high byte of a joined word. -/
theorem hiByte_joinBytes (h l : Byte) : hiByte (joinBytes h l) = h := by
  have := l.isLt
  apply BitVec.eq_of_toNat_eq
  rw [hiByte_toNat, joinBytes_toNat]
  omega

/-- The low byte of a joined word. -/
theorem loByte_joinBytes (h l : Byte) : loByte (joinBytes h l) = l := by
  have := l.isLt
  apply BitVec.eq_of_toNat_eq
  rw [loByte_toNat, joinBytes_toNat]
  omega

/-- Zero extension keeps the number. -/
theorem zext16_toNat (b : Byte) : (zext16 b).toNat = b.toNat := by
  have := b.isLt
  simp only [zext16, BitVec.toNat_setWidth]
  omega

/-- Sign extension keeps the signed number. -/
theorem sext16_toInt (b : Byte) : (sext16 b).toInt = b.toInt := by
  simp [sext16, BitVec.toInt_signExtend_of_le]

end Sys2Proof
end

