-- ==== Sys2Proof/Laws/Decode.lean ====
section
/-! SUPPORT. The decoder's opcode map agrees, row by row, with the encoder's table: what an opcode's
shape builds has that opcode, those operand bytes and that length, and is well formed. -/

namespace Sys2Proof

/-- What a row of the opcode map builds is the instruction of its opcode, with the operand bytes it
is given. -/
def RowAgrees (r : Nat × Shape) : Prop :=
  match r.2 with
  | .one i   => i.row.opcode.toNat = r.1 ∧ i.operand.bytes = [] ∧ i.wf = true ∧ i.length = 1
  | .two f   => ∀ b, (f b).row.opcode.toNat = r.1 ∧ (f b).operand.bytes = [b] ∧
      (f b).wf = true ∧ (f b).length = 2 ∧ (f b).entry = (f 0).entry
  | .three f => ∀ w, (f w).row.opcode.toNat = r.1 ∧ (f w).operand.bytes = [loByte w, hiByte w] ∧
      (f w).wf = true ∧ (f w).length = 3 ∧ (f w).entry = (f 0).entry

/-- Every row of a list agrees, as one conjunction. -/
def AllAgree : List (Nat × Shape) → Prop
  | []     => True
  | r :: t => RowAgrees r ∧ AllAgree t

theorem allAgree_append {l m : List (Nat × Shape)} (hl : AllAgree l) (hm : AllAgree m) :
    AllAgree (l ++ m) := by
  induction l with
  | nil => exact hm
  | cons r t ih => exact ⟨hl.1, ih hl.2⟩

theorem opcodes0_agree : AllAgree opcodes0 := by
  repeat' first
    | exact fun _ => ⟨rfl, rfl, rfl, rfl, rfl⟩
    | constructor
theorem opcodes1_agree : AllAgree opcodes1 := by
  repeat' first
    | exact fun _ => ⟨rfl, rfl, rfl, rfl, rfl⟩
    | constructor
theorem opcodes2_agree : AllAgree opcodes2 := by
  repeat' first
    | exact fun _ => ⟨rfl, rfl, rfl, rfl, rfl⟩
    | constructor
theorem opcodes3_agree : AllAgree opcodes3 := by
  repeat' first
    | exact fun _ => ⟨rfl, rfl, rfl, rfl, rfl⟩
    | constructor
theorem opcodes4_agree : AllAgree opcodes4 := by
  repeat' first
    | exact fun _ => ⟨rfl, rfl, rfl, rfl, rfl⟩
    | constructor
theorem opcodes5_agree : AllAgree opcodes5 := by
  repeat' first
    | exact fun _ => ⟨rfl, rfl, rfl, rfl, rfl⟩
    | constructor
theorem opcodes6_agree : AllAgree opcodes6 := by
  repeat' first
    | exact fun _ => ⟨rfl, rfl, rfl, rfl, rfl⟩
    | constructor
theorem opcodes7_agree : AllAgree opcodes7 := by
  repeat' first
    | exact fun _ => ⟨rfl, rfl, rfl, rfl, rfl⟩
    | constructor
theorem opcodes8_agree : AllAgree opcodes8 := by
  repeat' first
    | exact fun _ => ⟨rfl, rfl, rfl, rfl, rfl⟩
    | constructor
theorem opcodes9_agree : AllAgree opcodes9 := by
  repeat' first
    | exact fun _ => ⟨rfl, rfl, rfl, rfl, rfl⟩
    | constructor
theorem opcodesA_agree : AllAgree opcodesA := by
  repeat' first
    | exact fun _ => ⟨rfl, rfl, rfl, rfl, rfl⟩
    | constructor
theorem opcodesB_agree : AllAgree opcodesB := by
  repeat' first
    | exact fun _ => ⟨rfl, rfl, rfl, rfl, rfl⟩
    | constructor
theorem opcodesC_agree : AllAgree opcodesC := by
  repeat' first
    | exact fun _ => ⟨rfl, rfl, rfl, rfl, rfl⟩
    | constructor
theorem opcodesD_agree : AllAgree opcodesD := by
  repeat' first
    | exact fun _ => ⟨rfl, rfl, rfl, rfl, rfl⟩
    | constructor
theorem opcodesE_agree : AllAgree opcodesE := by
  repeat' first
    | exact fun _ => ⟨rfl, rfl, rfl, rfl, rfl⟩
    | constructor
theorem opcodesF_agree : AllAgree opcodesF := by
  repeat' first
    | exact fun _ => ⟨rfl, rfl, rfl, rfl, rfl⟩
    | constructor

/-- Every row of the opcode map agrees with the encoder. -/
theorem opcodeMap_agree : AllAgree opcodeMap := by
  have h := @allAgree_append
  exact h (h (h (h (h (h (h (h (h (h (h (h (h (h (h opcodes0_agree opcodes1_agree) opcodes2_agree)
    opcodes3_agree) opcodes4_agree) opcodes5_agree) opcodes6_agree) opcodes7_agree) opcodes8_agree)
    opcodes9_agree) opcodesA_agree) opcodesB_agree) opcodesC_agree) opcodesD_agree) opcodesE_agree)
    opcodesF_agree

/-- A row that is found agrees. -/
theorem findShape_agrees {n : Nat} {sh : Shape} {l : List (Nat × Shape)} (h : AllAgree l)
    (hf : findShape n l = some sh) : RowAgrees (n, sh) := by
  induction l with
  | nil => cases hf
  | cons r t ih =>
    obtain ⟨k, s⟩ := r
    simp only [findShape] at hf
    split at hf
    · rename_i hk
      cases hf
      exact hk ▸ h.1
    · exact ih h.2 hf

/-- An opcode the map does not hold is one of the bytes R64 lists. -/
theorem undocumented_of_findShape_none (op : Byte) (h : findShape op.toNat opcodeMap = none) :
    undocumentedOpcodes.contains op = true := by
  have : ∀ n < 256, findShape n opcodeMap = none →
      undocumentedOpcodes.contains (BitVec.ofNat 8 n) = true := by
    decide +kernel
  simpa using this op.toNat op.isLt h

/-- The shape of every opcode byte builds its own instruction (R61, R64). -/
theorem shapeOf_agrees (op : Byte) : RowAgrees (op.toNat, shapeOf op) := by
  unfold shapeOf
  cases h : findShape op.toNat opcodeMap with
  | some sh => exact findShape_agrees opcodeMap_agree h
  | none => exact ⟨rfl, rfl, undocumented_of_findShape_none op h, rfl⟩

end Sys2Proof
end

