-- ==== Sys2Proof/Laws/State.lean ====
section
/-! SUPPORT. One lemma per field of `State` for each update of it, and what each update leaves of
`byteAt` and `flag`: all true by
`rfl`, but for the recording of a list of reads. -/

namespace Sys2Proof.Machine

/-! ### `State.setA` -/

@[simp] theorem State.setA_a (s : State) (v : Byte) : (s.setA v).a = v := rfl
@[simp] theorem State.setA_x (s : State) (v : Byte) : (s.setA v).x = s.x := rfl
@[simp] theorem State.setA_y (s : State) (v : Byte) : (s.setA v).y = s.y := rfl
@[simp] theorem State.setA_sp (s : State) (v : Byte) : (s.setA v).sp = s.sp := rfl
@[simp] theorem State.setA_pc (s : State) (v : Byte) : (s.setA v).pc = s.pc := rfl
@[simp] theorem State.setA_p (s : State) (v : Byte) : (s.setA v).p = s.p := rfl
@[simp] theorem State.setA_ea (s : State) (v : Byte) : (s.setA v).ea = s.ea := rfl
@[simp] theorem State.setA_cur (s : State) (v : Byte) : (s.setA v).cur = s.cur := rfl
@[simp] theorem State.setA_pending (s : State) (v : Byte) : (s.setA v).pending = s.pending := rfl
@[simp] theorem State.setA_powered (s : State) (v : Byte) : (s.setA v).powered = s.powered := rfl
@[simp] theorem State.setA_traceEnabled (s : State) (v : Byte) :
    (s.setA v).traceEnabled = s.traceEnabled := rfl
@[simp] theorem State.setA_bus (s : State) (v : Byte) : (s.setA v).bus = s.bus := rfl
@[simp] theorem State.setA_mem (s : State) (v : Byte) : (s.setA v).mem = s.mem := rfl
@[simp] theorem State.setA_trace (s : State) (v : Byte) : (s.setA v).trace = s.trace := rfl
@[simp] theorem State.setA_accesses (s : State) (v : Byte) : (s.setA v).accesses = s.accesses := rfl
@[simp] theorem State.setA_past (s : State) (v : Byte) : (s.setA v).past = s.past := rfl
@[simp] theorem State.setA_byteAt (s : State) (v : Byte) (k : Addr) :
    (s.setA v).byteAt k = s.byteAt k := rfl
@[simp] theorem State.setA_wordAt (s : State) (v : Byte) (k h : Addr) :
    (s.setA v).wordAt k h = s.wordAt k h := rfl
@[simp] theorem State.setA_flag (s : State) (v : Byte) (f : Flag) :
    (s.setA v).flag f = s.flag f := rfl

/-! ### `State.setX` -/

@[simp] theorem State.setX_a (s : State) (v : Byte) : (s.setX v).a = s.a := rfl
@[simp] theorem State.setX_x (s : State) (v : Byte) : (s.setX v).x = v := rfl
@[simp] theorem State.setX_y (s : State) (v : Byte) : (s.setX v).y = s.y := rfl
@[simp] theorem State.setX_sp (s : State) (v : Byte) : (s.setX v).sp = s.sp := rfl
@[simp] theorem State.setX_pc (s : State) (v : Byte) : (s.setX v).pc = s.pc := rfl
@[simp] theorem State.setX_p (s : State) (v : Byte) : (s.setX v).p = s.p := rfl
@[simp] theorem State.setX_ea (s : State) (v : Byte) : (s.setX v).ea = s.ea := rfl
@[simp] theorem State.setX_cur (s : State) (v : Byte) : (s.setX v).cur = s.cur := rfl
@[simp] theorem State.setX_pending (s : State) (v : Byte) : (s.setX v).pending = s.pending := rfl
@[simp] theorem State.setX_powered (s : State) (v : Byte) : (s.setX v).powered = s.powered := rfl
@[simp] theorem State.setX_traceEnabled (s : State) (v : Byte) :
    (s.setX v).traceEnabled = s.traceEnabled := rfl
@[simp] theorem State.setX_bus (s : State) (v : Byte) : (s.setX v).bus = s.bus := rfl
@[simp] theorem State.setX_mem (s : State) (v : Byte) : (s.setX v).mem = s.mem := rfl
@[simp] theorem State.setX_trace (s : State) (v : Byte) : (s.setX v).trace = s.trace := rfl
@[simp] theorem State.setX_accesses (s : State) (v : Byte) : (s.setX v).accesses = s.accesses := rfl
@[simp] theorem State.setX_past (s : State) (v : Byte) : (s.setX v).past = s.past := rfl
@[simp] theorem State.setX_byteAt (s : State) (v : Byte) (k : Addr) :
    (s.setX v).byteAt k = s.byteAt k := rfl
@[simp] theorem State.setX_wordAt (s : State) (v : Byte) (k h : Addr) :
    (s.setX v).wordAt k h = s.wordAt k h := rfl
@[simp] theorem State.setX_flag (s : State) (v : Byte) (f : Flag) :
    (s.setX v).flag f = s.flag f := rfl

/-! ### `State.setY` -/

@[simp] theorem State.setY_a (s : State) (v : Byte) : (s.setY v).a = s.a := rfl
@[simp] theorem State.setY_x (s : State) (v : Byte) : (s.setY v).x = s.x := rfl
@[simp] theorem State.setY_y (s : State) (v : Byte) : (s.setY v).y = v := rfl
@[simp] theorem State.setY_sp (s : State) (v : Byte) : (s.setY v).sp = s.sp := rfl
@[simp] theorem State.setY_pc (s : State) (v : Byte) : (s.setY v).pc = s.pc := rfl
@[simp] theorem State.setY_p (s : State) (v : Byte) : (s.setY v).p = s.p := rfl
@[simp] theorem State.setY_ea (s : State) (v : Byte) : (s.setY v).ea = s.ea := rfl
@[simp] theorem State.setY_cur (s : State) (v : Byte) : (s.setY v).cur = s.cur := rfl
@[simp] theorem State.setY_pending (s : State) (v : Byte) : (s.setY v).pending = s.pending := rfl
@[simp] theorem State.setY_powered (s : State) (v : Byte) : (s.setY v).powered = s.powered := rfl
@[simp] theorem State.setY_traceEnabled (s : State) (v : Byte) :
    (s.setY v).traceEnabled = s.traceEnabled := rfl
@[simp] theorem State.setY_bus (s : State) (v : Byte) : (s.setY v).bus = s.bus := rfl
@[simp] theorem State.setY_mem (s : State) (v : Byte) : (s.setY v).mem = s.mem := rfl
@[simp] theorem State.setY_trace (s : State) (v : Byte) : (s.setY v).trace = s.trace := rfl
@[simp] theorem State.setY_accesses (s : State) (v : Byte) : (s.setY v).accesses = s.accesses := rfl
@[simp] theorem State.setY_past (s : State) (v : Byte) : (s.setY v).past = s.past := rfl
@[simp] theorem State.setY_byteAt (s : State) (v : Byte) (k : Addr) :
    (s.setY v).byteAt k = s.byteAt k := rfl
@[simp] theorem State.setY_wordAt (s : State) (v : Byte) (k h : Addr) :
    (s.setY v).wordAt k h = s.wordAt k h := rfl
@[simp] theorem State.setY_flag (s : State) (v : Byte) (f : Flag) :
    (s.setY v).flag f = s.flag f := rfl

/-! ### `State.setSp` -/

@[simp] theorem State.setSp_a (s : State) (v : Byte) : (s.setSp v).a = s.a := rfl
@[simp] theorem State.setSp_x (s : State) (v : Byte) : (s.setSp v).x = s.x := rfl
@[simp] theorem State.setSp_y (s : State) (v : Byte) : (s.setSp v).y = s.y := rfl
@[simp] theorem State.setSp_sp (s : State) (v : Byte) : (s.setSp v).sp = v := rfl
@[simp] theorem State.setSp_pc (s : State) (v : Byte) : (s.setSp v).pc = s.pc := rfl
@[simp] theorem State.setSp_p (s : State) (v : Byte) : (s.setSp v).p = s.p := rfl
@[simp] theorem State.setSp_ea (s : State) (v : Byte) : (s.setSp v).ea = s.ea := rfl
@[simp] theorem State.setSp_cur (s : State) (v : Byte) : (s.setSp v).cur = s.cur := rfl
@[simp] theorem State.setSp_pending (s : State) (v : Byte) : (s.setSp v).pending = s.pending := rfl
@[simp] theorem State.setSp_powered (s : State) (v : Byte) : (s.setSp v).powered = s.powered := rfl
@[simp] theorem State.setSp_traceEnabled (s : State) (v : Byte) :
    (s.setSp v).traceEnabled = s.traceEnabled := rfl
@[simp] theorem State.setSp_bus (s : State) (v : Byte) : (s.setSp v).bus = s.bus := rfl
@[simp] theorem State.setSp_mem (s : State) (v : Byte) : (s.setSp v).mem = s.mem := rfl
@[simp] theorem State.setSp_trace (s : State) (v : Byte) : (s.setSp v).trace = s.trace := rfl
@[simp] theorem State.setSp_accesses (s : State) (v : Byte) :
    (s.setSp v).accesses = s.accesses := rfl
@[simp] theorem State.setSp_past (s : State) (v : Byte) : (s.setSp v).past = s.past := rfl
@[simp] theorem State.setSp_byteAt (s : State) (v : Byte) (k : Addr) :
    (s.setSp v).byteAt k = s.byteAt k := rfl
@[simp] theorem State.setSp_wordAt (s : State) (v : Byte) (k h : Addr) :
    (s.setSp v).wordAt k h = s.wordAt k h := rfl
@[simp] theorem State.setSp_flag (s : State) (v : Byte) (f : Flag) :
    (s.setSp v).flag f = s.flag f := rfl

/-! ### `State.setPc` -/

@[simp] theorem State.setPc_a (s : State) (v : Addr) : (s.setPc v).a = s.a := rfl
@[simp] theorem State.setPc_x (s : State) (v : Addr) : (s.setPc v).x = s.x := rfl
@[simp] theorem State.setPc_y (s : State) (v : Addr) : (s.setPc v).y = s.y := rfl
@[simp] theorem State.setPc_sp (s : State) (v : Addr) : (s.setPc v).sp = s.sp := rfl
@[simp] theorem State.setPc_pc (s : State) (v : Addr) : (s.setPc v).pc = v := rfl
@[simp] theorem State.setPc_p (s : State) (v : Addr) : (s.setPc v).p = s.p := rfl
@[simp] theorem State.setPc_ea (s : State) (v : Addr) : (s.setPc v).ea = s.ea := rfl
@[simp] theorem State.setPc_cur (s : State) (v : Addr) : (s.setPc v).cur = s.cur := rfl
@[simp] theorem State.setPc_pending (s : State) (v : Addr) : (s.setPc v).pending = s.pending := rfl
@[simp] theorem State.setPc_powered (s : State) (v : Addr) : (s.setPc v).powered = s.powered := rfl
@[simp] theorem State.setPc_traceEnabled (s : State) (v : Addr) :
    (s.setPc v).traceEnabled = s.traceEnabled := rfl
@[simp] theorem State.setPc_bus (s : State) (v : Addr) : (s.setPc v).bus = s.bus := rfl
@[simp] theorem State.setPc_mem (s : State) (v : Addr) : (s.setPc v).mem = s.mem := rfl
@[simp] theorem State.setPc_trace (s : State) (v : Addr) : (s.setPc v).trace = s.trace := rfl
@[simp] theorem State.setPc_accesses (s : State) (v : Addr) :
    (s.setPc v).accesses = s.accesses := rfl
@[simp] theorem State.setPc_past (s : State) (v : Addr) : (s.setPc v).past = s.past := rfl
@[simp] theorem State.setPc_byteAt (s : State) (v : Addr) (k : Addr) :
    (s.setPc v).byteAt k = s.byteAt k := rfl
@[simp] theorem State.setPc_wordAt (s : State) (v : Addr) (k h : Addr) :
    (s.setPc v).wordAt k h = s.wordAt k h := rfl
@[simp] theorem State.setPc_flag (s : State) (v : Addr) (f : Flag) :
    (s.setPc v).flag f = s.flag f := rfl

/-! ### `State.setP` -/

@[simp] theorem State.setP_a (s : State) (v : Byte) : (s.setP v).a = s.a := rfl
@[simp] theorem State.setP_x (s : State) (v : Byte) : (s.setP v).x = s.x := rfl
@[simp] theorem State.setP_y (s : State) (v : Byte) : (s.setP v).y = s.y := rfl
@[simp] theorem State.setP_sp (s : State) (v : Byte) : (s.setP v).sp = s.sp := rfl
@[simp] theorem State.setP_pc (s : State) (v : Byte) : (s.setP v).pc = s.pc := rfl
@[simp] theorem State.setP_p (s : State) (v : Byte) : (s.setP v).p = v := rfl
@[simp] theorem State.setP_ea (s : State) (v : Byte) : (s.setP v).ea = s.ea := rfl
@[simp] theorem State.setP_cur (s : State) (v : Byte) : (s.setP v).cur = s.cur := rfl
@[simp] theorem State.setP_pending (s : State) (v : Byte) : (s.setP v).pending = s.pending := rfl
@[simp] theorem State.setP_powered (s : State) (v : Byte) : (s.setP v).powered = s.powered := rfl
@[simp] theorem State.setP_traceEnabled (s : State) (v : Byte) :
    (s.setP v).traceEnabled = s.traceEnabled := rfl
@[simp] theorem State.setP_bus (s : State) (v : Byte) : (s.setP v).bus = s.bus := rfl
@[simp] theorem State.setP_mem (s : State) (v : Byte) : (s.setP v).mem = s.mem := rfl
@[simp] theorem State.setP_trace (s : State) (v : Byte) : (s.setP v).trace = s.trace := rfl
@[simp] theorem State.setP_accesses (s : State) (v : Byte) : (s.setP v).accesses = s.accesses := rfl
@[simp] theorem State.setP_past (s : State) (v : Byte) : (s.setP v).past = s.past := rfl
@[simp] theorem State.setP_byteAt (s : State) (v : Byte) (k : Addr) :
    (s.setP v).byteAt k = s.byteAt k := rfl
@[simp] theorem State.setP_wordAt (s : State) (v : Byte) (k h : Addr) :
    (s.setP v).wordAt k h = s.wordAt k h := rfl
@[simp] theorem State.setP_flag (s : State) (v : Byte) (f : Flag) :
    (s.setP v).flag f = getFlag v f := rfl

/-! ### `State.setPending` -/

@[simp] theorem State.setPending_a (s : State) (n : Nat) : (s.setPending n).a = s.a := rfl
@[simp] theorem State.setPending_x (s : State) (n : Nat) : (s.setPending n).x = s.x := rfl
@[simp] theorem State.setPending_y (s : State) (n : Nat) : (s.setPending n).y = s.y := rfl
@[simp] theorem State.setPending_sp (s : State) (n : Nat) : (s.setPending n).sp = s.sp := rfl
@[simp] theorem State.setPending_pc (s : State) (n : Nat) : (s.setPending n).pc = s.pc := rfl
@[simp] theorem State.setPending_p (s : State) (n : Nat) : (s.setPending n).p = s.p := rfl
@[simp] theorem State.setPending_ea (s : State) (n : Nat) : (s.setPending n).ea = s.ea := rfl
@[simp] theorem State.setPending_cur (s : State) (n : Nat) : (s.setPending n).cur = s.cur := rfl
@[simp] theorem State.setPending_pending (s : State) (n : Nat) : (s.setPending n).pending = n := rfl
@[simp] theorem State.setPending_powered (s : State) (n : Nat) :
    (s.setPending n).powered = s.powered := rfl
@[simp] theorem State.setPending_traceEnabled (s : State) (n : Nat) :
    (s.setPending n).traceEnabled = s.traceEnabled := rfl
@[simp] theorem State.setPending_bus (s : State) (n : Nat) : (s.setPending n).bus = s.bus := rfl
@[simp] theorem State.setPending_mem (s : State) (n : Nat) : (s.setPending n).mem = s.mem := rfl
@[simp] theorem State.setPending_trace (s : State) (n : Nat) :
    (s.setPending n).trace = s.trace := rfl
@[simp] theorem State.setPending_accesses (s : State) (n : Nat) :
    (s.setPending n).accesses = s.accesses := rfl
@[simp] theorem State.setPending_past (s : State) (n : Nat) : (s.setPending n).past = s.past := rfl
@[simp] theorem State.setPending_byteAt (s : State) (n : Nat) (k : Addr) :
    (s.setPending n).byteAt k = s.byteAt k := rfl
@[simp] theorem State.setPending_wordAt (s : State) (n : Nat) (k h : Addr) :
    (s.setPending n).wordAt k h = s.wordAt k h := rfl
@[simp] theorem State.setPending_flag (s : State) (n : Nat) (f : Flag) :
    (s.setPending n).flag f = s.flag f := rfl

/-! ### `State.noteRead` -/

@[simp] theorem State.noteRead_a (s : State) (a : Addr) : (s.noteRead a).a = s.a := rfl
@[simp] theorem State.noteRead_x (s : State) (a : Addr) : (s.noteRead a).x = s.x := rfl
@[simp] theorem State.noteRead_y (s : State) (a : Addr) : (s.noteRead a).y = s.y := rfl
@[simp] theorem State.noteRead_sp (s : State) (a : Addr) : (s.noteRead a).sp = s.sp := rfl
@[simp] theorem State.noteRead_pc (s : State) (a : Addr) : (s.noteRead a).pc = s.pc := rfl
@[simp] theorem State.noteRead_p (s : State) (a : Addr) : (s.noteRead a).p = s.p := rfl
@[simp] theorem State.noteRead_ea (s : State) (a : Addr) : (s.noteRead a).ea = s.ea := rfl
@[simp] theorem State.noteRead_cur (s : State) (a : Addr) : (s.noteRead a).cur = s.cur := rfl
@[simp] theorem State.noteRead_pending (s : State) (a : Addr) :
    (s.noteRead a).pending = s.pending := rfl
@[simp] theorem State.noteRead_powered (s : State) (a : Addr) :
    (s.noteRead a).powered = s.powered := rfl
@[simp] theorem State.noteRead_traceEnabled (s : State) (a : Addr) :
    (s.noteRead a).traceEnabled = s.traceEnabled := rfl
@[simp] theorem State.noteRead_bus (s : State) (a : Addr) : (s.noteRead a).bus = s.bus := rfl
@[simp] theorem State.noteRead_mem (s : State) (a : Addr) : (s.noteRead a).mem = s.mem := rfl
@[simp] theorem State.noteRead_trace (s : State) (a : Addr) : (s.noteRead a).trace = s.trace := rfl
@[simp] theorem State.noteRead_accesses (s : State) (a : Addr) :
    (s.noteRead a).accesses = s.accesses ++ [.read a (s.byteAt a)] := rfl
@[simp] theorem State.noteRead_past (s : State) (a : Addr) : (s.noteRead a).past = s.past := rfl
@[simp] theorem State.noteRead_flag (s : State) (a : Addr) (f : Flag) :
    (s.noteRead a).flag f = s.flag f := rfl

/-! ### `State.noteReads` -/

@[simp] theorem State.noteReads_nil (s : State) : s.noteReads [] = s := rfl
theorem State.noteReads_cons (s : State) (a : Addr) (l : List Addr) :
    s.noteReads (a :: l) = (s.noteRead a).noteReads l := rfl
/-- Recording reads changes the record of accesses and nothing else. -/
theorem State.noteReads_eq (s : State) (l : List Addr) :
    s.noteReads l = { s with accesses := (s.noteReads l).accesses } := by
  induction l generalizing s with
  | nil => rfl
  | cons a l ih => exact ih _
@[simp] theorem State.noteReads_append (s : State) (l m : List Addr) :
    (s.noteReads l).noteReads m = s.noteReads (l ++ m) := by
  simp [State.noteReads]
@[simp] theorem State.noteReads_singleton (s : State) (a : Addr) : s.noteReads [a] = s.noteRead a :=
        rfl
@[simp] theorem State.noteReads_a (s : State) (l : List Addr) : (s.noteReads l).a = s.a := by
  rw [State.noteReads_eq]
@[simp] theorem State.noteReads_x (s : State) (l : List Addr) : (s.noteReads l).x = s.x := by
  rw [State.noteReads_eq]
@[simp] theorem State.noteReads_y (s : State) (l : List Addr) : (s.noteReads l).y = s.y := by
  rw [State.noteReads_eq]
@[simp] theorem State.noteReads_sp (s : State) (l : List Addr) : (s.noteReads l).sp = s.sp := by
  rw [State.noteReads_eq]
@[simp] theorem State.noteReads_pc (s : State) (l : List Addr) : (s.noteReads l).pc = s.pc := by
  rw [State.noteReads_eq]
@[simp] theorem State.noteReads_p (s : State) (l : List Addr) : (s.noteReads l).p = s.p := by
  rw [State.noteReads_eq]
@[simp] theorem State.noteReads_ea (s : State) (l : List Addr) : (s.noteReads l).ea = s.ea := by
  rw [State.noteReads_eq]
@[simp] theorem State.noteReads_cur (s : State) (l : List Addr) : (s.noteReads l).cur = s.cur := by
  rw [State.noteReads_eq]
@[simp] theorem State.noteReads_pending (s : State) (l : List Addr) :
    (s.noteReads l).pending = s.pending := by
  rw [State.noteReads_eq]
@[simp] theorem State.noteReads_powered (s : State) (l : List Addr) :
    (s.noteReads l).powered = s.powered := by
  rw [State.noteReads_eq]
@[simp] theorem State.noteReads_traceEnabled (s : State) (l : List Addr) :
    (s.noteReads l).traceEnabled = s.traceEnabled := by
  rw [State.noteReads_eq]
@[simp] theorem State.noteReads_bus (s : State) (l : List Addr) : (s.noteReads l).bus = s.bus := by
  rw [State.noteReads_eq]
@[simp] theorem State.noteReads_mem (s : State) (l : List Addr) : (s.noteReads l).mem = s.mem := by
  rw [State.noteReads_eq]
@[simp] theorem State.noteReads_trace (s : State) (l : List Addr) :
    (s.noteReads l).trace = s.trace := by
  rw [State.noteReads_eq]
@[simp] theorem State.noteReads_past (s : State) (l : List Addr) :
    (s.noteReads l).past = s.past := by
  rw [State.noteReads_eq]
@[simp] theorem State.noteReads_flag (s : State) (l : List Addr) (f : Flag) :
    (s.noteReads l).flag f = s.flag f := by
  simp [State.flag]

/-! ### `State.beginCall` -/

@[simp] theorem State.beginCall_a (s : State) : (s.beginCall).a = s.a := rfl
@[simp] theorem State.beginCall_x (s : State) : (s.beginCall).x = s.x := rfl
@[simp] theorem State.beginCall_y (s : State) : (s.beginCall).y = s.y := rfl
@[simp] theorem State.beginCall_sp (s : State) : (s.beginCall).sp = s.sp := rfl
@[simp] theorem State.beginCall_pc (s : State) : (s.beginCall).pc = s.pc := rfl
@[simp] theorem State.beginCall_p (s : State) : (s.beginCall).p = s.p := rfl
@[simp] theorem State.beginCall_ea (s : State) : (s.beginCall).ea = s.ea := rfl
@[simp] theorem State.beginCall_cur (s : State) : (s.beginCall).cur = s.cur := rfl
@[simp] theorem State.beginCall_pending (s : State) : (s.beginCall).pending = s.pending := rfl
@[simp] theorem State.beginCall_powered (s : State) : (s.beginCall).powered = s.powered := rfl
@[simp] theorem State.beginCall_traceEnabled (s : State) :
    (s.beginCall).traceEnabled = s.traceEnabled := rfl
@[simp] theorem State.beginCall_bus (s : State) : (s.beginCall).bus = s.bus := rfl
@[simp] theorem State.beginCall_mem (s : State) : (s.beginCall).mem = s.mem := rfl
@[simp] theorem State.beginCall_trace (s : State) : (s.beginCall).trace = none := rfl
@[simp] theorem State.beginCall_accesses (s : State) : (s.beginCall).accesses = [] := rfl
@[simp] theorem State.beginCall_past (s : State) :
    (s.beginCall).past = if s.bus.hasDevice then s.history else s.past := rfl
@[simp] theorem State.beginCall_flag (s : State) (f : Flag) : (s.beginCall).flag f = s.flag f := rfl

/-! ### `memWrite` -/

@[simp] theorem memWrite_a (a : Addr) (v : Byte) (s : State) : (memWrite a v s).a = s.a := rfl
@[simp] theorem memWrite_x (a : Addr) (v : Byte) (s : State) : (memWrite a v s).x = s.x := rfl
@[simp] theorem memWrite_y (a : Addr) (v : Byte) (s : State) : (memWrite a v s).y = s.y := rfl
@[simp] theorem memWrite_sp (a : Addr) (v : Byte) (s : State) : (memWrite a v s).sp = s.sp := rfl
@[simp] theorem memWrite_pc (a : Addr) (v : Byte) (s : State) : (memWrite a v s).pc = s.pc := rfl
@[simp] theorem memWrite_p (a : Addr) (v : Byte) (s : State) : (memWrite a v s).p = s.p := rfl
@[simp] theorem memWrite_ea (a : Addr) (v : Byte) (s : State) : (memWrite a v s).ea = s.ea := rfl
@[simp] theorem memWrite_cur (a : Addr) (v : Byte) (s : State) : (memWrite a v s).cur = s.cur := rfl
@[simp] theorem memWrite_pending (a : Addr) (v : Byte) (s : State) :
    (memWrite a v s).pending = s.pending := rfl
@[simp] theorem memWrite_powered (a : Addr) (v : Byte) (s : State) :
    (memWrite a v s).powered = s.powered := rfl
@[simp] theorem memWrite_traceEnabled (a : Addr) (v : Byte) (s : State) :
    (memWrite a v s).traceEnabled = s.traceEnabled := rfl
@[simp] theorem memWrite_bus (a : Addr) (v : Byte) (s : State) : (memWrite a v s).bus = s.bus := rfl
@[simp] theorem memWrite_mem (a : Addr) (v : Byte) (s : State) :
    (memWrite a v s).mem = s.bus.store s.mem a v := rfl
@[simp] theorem memWrite_trace (a : Addr) (v : Byte) (s : State) :
    (memWrite a v s).trace = s.trace := rfl
@[simp] theorem memWrite_accesses (a : Addr) (v : Byte) (s : State) :
    (memWrite a v s).accesses = s.accesses ++ [.write a v] := rfl
@[simp] theorem memWrite_past (a : Addr) (v : Byte) (s : State) :
    (memWrite a v s).past = s.past := rfl
@[simp] theorem memWrite_flag (a : Addr) (v : Byte) (s : State) (f : Flag) :
    (memWrite a v s).flag f = s.flag f := rfl

/-! ### `resolve` -/

@[simp] theorem resolve_a (i : Instr) (s : State) : (resolve i s).a = s.a := by simp [resolve]
@[simp] theorem resolve_x (i : Instr) (s : State) : (resolve i s).x = s.x := by simp [resolve]
@[simp] theorem resolve_y (i : Instr) (s : State) : (resolve i s).y = s.y := by simp [resolve]
@[simp] theorem resolve_sp (i : Instr) (s : State) : (resolve i s).sp = s.sp := by simp [resolve]
@[simp] theorem resolve_pc (i : Instr) (s : State) :
    (resolve i s).pc = s.pc + BitVec.ofNat 16 i.length := rfl
@[simp] theorem resolve_p (i : Instr) (s : State) : (resolve i s).p = s.p := by simp [resolve]
@[simp] theorem resolve_ea (i : Instr) (s : State) :
    (resolve i s).ea = effectiveAddress i.operand s := rfl
@[simp] theorem resolve_cur (i : Instr) (s : State) : (resolve i s).cur = i.entry := rfl
@[simp] theorem resolve_pending (i : Instr) (s : State) :
    (resolve i s).pending = s.pending := by simp [resolve]
@[simp] theorem resolve_powered (i : Instr) (s : State) :
    (resolve i s).powered = s.powered := by simp [resolve]
@[simp] theorem resolve_traceEnabled (i : Instr) (s : State) :
    (resolve i s).traceEnabled = s.traceEnabled := by simp [resolve]
@[simp] theorem resolve_bus (i : Instr) (s : State) : (resolve i s).bus = s.bus := by simp [resolve]
@[simp] theorem resolve_mem (i : Instr) (s : State) : (resolve i s).mem = s.mem := by simp [resolve]
@[simp] theorem resolve_trace (i : Instr) (s : State) :
    (resolve i s).trace = s.trace := by simp [resolve]
@[simp] theorem resolve_accesses (i : Instr) (s : State) :
    (resolve i s).accesses = (s.noteReads (pointerReads i.operand s)).accesses := rfl
@[simp] theorem resolve_past (i : Instr) (s : State) :
    (resolve i s).past = s.past := by simp [resolve]
@[simp] theorem resolve_flag (i : Instr) (s : State) (f : Flag) :
    (resolve i s).flag f = s.flag f := by
  simp [State.flag]

/-! ### Updates made of those -/

@[simp] theorem State.setFlag_eq (s : State) (f : Flag) (v : Bool) :
    s.setFlag f v = s.setP (putFlag s.p f v) := rfl
@[simp] theorem State.setNZ_eq (s : State) (r : Byte) :
    s.setNZ r = s.setP (Machine.setNZ s.p r) := rfl

end Sys2Proof.Machine
end

