-- ==== Sys2Proof/Laws/Flags.lean ====
section
/-! SUPPORT. The laws of the flag and arithmetic functions. -/

namespace Sys2Proof.Machine

/-! ### Single flags -/

/-- Reading a flag after writing one: the value written, or the old value of another flag. -/
@[simp] theorem getFlag_putFlag (p : Byte) (f g : Flag) (v : Bool) :
    getFlag (putFlag p f v) g = if f = g then v else getFlag p g := by
  cases v <;> cases f <;> cases g <;> simp [getFlag, putFlag, Flag.bit]

/-- N after `SetNZ` (R28). -/
@[simp] theorem getFlag_setNZ (p r : Byte) (f : Flag) :
    getFlag (setNZ p r) f =
      if f = .N then r.msb else if f = .Z then r == 0 else getFlag p f := by
  cases f <;> simp [setNZ]

/-- Two status bytes with the same flags are the same. -/
theorem eq_of_getFlag (p q : Byte) (h : ∀ f, getFlag p f = getFlag q f) : p = q := by
  have hC := h .C
  have hZ := h .Z
  have hI := h .I
  have hD := h .D
  have hB := h .B
  have hU := h .U
  have hV := h .V
  have hN := h .N
  simp only [getFlag, Flag.bit] at hC hZ hI hD hB hU hV hN
  apply BitVec.eq_of_getLsbD_eq
  intro k hk
  match k, hk with
  | 0, _ => exact hC | 1, _ => exact hZ | 2, _ => exact hI | 3, _ => exact hD
  | 4, _ => exact hB | 5, _ => exact hU | 6, _ => exact hV | 7, _ => exact hN

/-- The flags of a pushed status byte (R29): U is 1, B is as forced, the rest are those of P. -/
@[simp] theorem getFlag_pushedP (p : Byte) (b : Bool) (f : Flag) :
    getFlag (pushedP p b) f = if f = .U then true else if f = .B then b else getFlag p f := by
  cases f <;> cases b <;> simp [getFlag, pushedP, Flag.bit]

/-- The flags of a pulled status byte (R30): U is 1, the rest are those pulled. -/
@[simp] theorem getFlag_loadP (v : Byte) (f : Flag) :
    getFlag (loadP v) f = if f = .U then true else getFlag v f := by
  cases f <;> simp [getFlag, loadP, Flag.bit]

/-- The status byte PHP and BRK push, as a mask (R29). -/
theorem pushedP_true (p : Byte) : pushedP p true = p ||| 0x30 := by
  apply eq_of_getFlag
  intro f
  cases f <;> simp [getFlag, pushedP, Flag.bit]

/-- The status byte IRQ and NMI push, as a mask (R29). -/
theorem pushedP_false (p : Byte) : pushedP p false = (p &&& 0xEF) ||| 0x20 := by
  apply eq_of_getFlag
  intro f
  cases f <;> simp [getFlag, pushedP, Flag.bit]

/-! ### What each computation does to every flag -/

@[simp] theorem getFlag_adcFlags (a m p : Byte) (f : Flag) :
    getFlag (adcFlags a m p).p f =
      let b := addBinary a m (getFlag p .C)
      match f with
      | .N => b.result.msb
      | .Z => b.result == 0
      | .V => b.overflow
      | .C => bif getFlag p .D then (adcDecimal a m (getFlag p .C)).2 else b.carry
      | g  => getFlag p g := by
  cases f <;> simp [adcFlags]

@[simp] theorem getFlag_sbcFlags (a m p : Byte) (f : Flag) :
    getFlag (sbcFlags a m p).p f =
      let b := addBinary a (m ^^^ 0xFF) (getFlag p .C)
      match f with
      | .N => b.result.msb
      | .Z => b.result == 0
      | .V => b.overflow
      | .C => b.carry
      | g  => getFlag p g := by
  cases f <;> simp [sbcFlags]

@[simp] theorem getFlag_compareFlags (r m p : Byte) (f : Flag) :
    getFlag (compareFlags r m p) f =
      match f with
      | .N => (r - m).msb
      | .Z => r == m
      | .C => decide (m.toNat ≤ r.toNat)
      | g  => getFlag p g := by
  cases f <;> simp [compareFlags]

@[simp] theorem getFlag_bitFlags (a m p : Byte) (f : Flag) :
    getFlag (bitFlags a m p) f =
      match f with
      | .N => m.getLsbD 7
      | .V => m.getLsbD 6
      | .Z => (a &&& m) == 0
      | g  => getFlag p g := by
  cases f <;> simp [bitFlags]

/-! ### Read-modify-write results -/

@[simp] theorem aslByte_value (v p : Byte) : (aslByte v p).value = v <<< 1 := rfl
@[simp] theorem aslByte_p (v p : Byte) :
    (aslByte v p).p = setNZ (putFlag p .C (v.getLsbD 7)) (v <<< 1) := rfl
@[simp] theorem lsrByte_value (v p : Byte) : (lsrByte v p).value = v >>> 1 := rfl
@[simp] theorem lsrByte_p (v p : Byte) :
    (lsrByte v p).p = setNZ (putFlag p .C (v.getLsbD 0)) (v >>> 1) := rfl
@[simp] theorem rolByte_p (v p : Byte) :
    (rolByte v p).p = setNZ (putFlag p .C (v.getLsbD 7)) (rolByte v p).value := rfl
@[simp] theorem rorByte_p (v p : Byte) :
    (rorByte v p).p = setNZ (putFlag p .C (v.getLsbD 0)) (rorByte v p).value := rfl
@[simp] theorem incByte_value (v p : Byte) : (incByte v p).value = v + 1 := rfl
@[simp] theorem incByte_p (v p : Byte) : (incByte v p).p = setNZ p (v + 1) := rfl
@[simp] theorem decByte_value (v p : Byte) : (decByte v p).value = v - 1 := rfl
@[simp] theorem decByte_p (v p : Byte) : (decByte v p).p = setNZ p (v - 1) := rfl

/-- Bit by bit, ROL shifts left and takes the prior carry into bit 0 (R105). -/
theorem rolByte_bits (v p : Byte) (k : Nat) (hk : k < 8) :
    (rolByte v p).value.getLsbD k = if k = 0 then getFlag p .C else v.getLsbD (k - 1) := by
  cases hc : getFlag p .C <;>
    (match k, hk with
     | 0, _ | 1, _ | 2, _ | 3, _ | 4, _ | 5, _ | 6, _ | 7, _ =>
       simp [rolByte, hc])

/-- Bit by bit, ROR shifts right and takes the prior carry into bit 7 (R106). -/
theorem rorByte_bits (v p : Byte) (k : Nat) (hk : k < 8) :
    (rorByte v p).value.getLsbD k = if k = 7 then getFlag p .C else v.getLsbD (k + 1) := by
  cases hc : getFlag p .C <;>
    (match k, hk with
     | 0, _ | 1, _ | 2, _ | 3, _ | 4, _ | 5, _ | 6, _ | 7, _ =>
       simp [rorByte, hc, Nat.add_comm])

end Sys2Proof.Machine
end

