-- ==== Sys2Proof/Laws/Memory.lean ====
section
/-! SUPPORT. The laws of memory: a read after a write, and the canonical form kept; and
what the bus makes of reads and writes. -/

namespace Sys2Proof.Machine

theorem Memory.read_of_lt_wfFrom (m : Memory) (n a : Nat) (h : Memory.wfFrom n m = true)
    (ha : a < n) : Memory.read m a = unlistedByte := by
  induction m generalizing n with
  | nil => rfl
  | cons c t ih =>
    obtain ⟨k, v⟩ := c
    simp only [Memory.wfFrom, Bool.and_eq_true, decide_eq_true_eq] at h
    have hk : k ≠ a := by omega
    simp only [Memory.read, hk, if_false]
    exact ih (k + 1) h.2 (by omega)

/-- A lower bound on the addresses can be lowered. -/
theorem Memory.wfFrom_mono (m : Memory) (n n' : Nat) (h : Memory.wfFrom n m = true) (hn : n' ≤ n) :
    Memory.wfFrom n' m = true := by
  cases m with
  | nil => rfl
  | cons c t =>
    obtain ⟨k, v⟩ := c
    simp only [Memory.wfFrom, Bool.and_eq_true, decide_eq_true_eq] at h ⊢
    exact ⟨⟨⟨by omega, h.1.1.2⟩, h.1.2⟩, h.2⟩

/-- A write leaves every other address alone. -/
theorem Memory.read_write_of_ne (m : Memory) (a b : Nat) (v : Byte) (h : b ≠ a) :
    Memory.read (Memory.write m a v) b = Memory.read m b := by
  induction m with
  | nil =>
    simp only [Memory.write]
    split <;> simp [Memory.read, Ne.symm h]
  | cons c t ih =>
    obtain ⟨k, u⟩ := c
    simp only [Memory.write]
    split
    · split <;> simp [Memory.read, Ne.symm h]
    · split
      · subst_vars
        split <;> simp [Memory.read, Ne.symm h]
      · simp [Memory.read, ih]

theorem Memory.read_write_same_from (m : Memory) (n a : Nat) (v : Byte)
    (h : Memory.wfFrom n m = true) : Memory.read (Memory.write m a v) a = v := by
  induction m generalizing n with
  | nil =>
    simp only [Memory.write]
    split <;> simp_all [Memory.read]
  | cons c t ih =>
    obtain ⟨k, u⟩ := c
    simp only [Memory.wfFrom, Bool.and_eq_true, decide_eq_true_eq] at h
    have low : a ≤ k → Memory.read t a = unlistedByte := fun hk =>
      Memory.read_of_lt_wfFrom t (k + 1) a h.2 (by omega)
    simp only [Memory.write]
    split
    · split
      · have hk : k ≠ a := by omega
        simp [Memory.read, low (by omega), *]
      · simp [Memory.read]
    · split
      · split
        · rw [low (by omega)]
          exact Eq.symm ‹v = unlistedByte›
        · simp [Memory.read]
      · have hk : k ≠ a := by omega
        simpa [Memory.read, hk] using ih (k + 1) h.2

/-- A read returns the last byte written at its address (R43, R52). -/
theorem Memory.read_write_same (m : Memory) (a : Nat) (v : Byte) (h : m.wf = true) :
    Memory.read (Memory.write m a v) a = v :=
  Memory.read_write_same_from m 0 a v h

theorem Memory.wfFrom_write (m : Memory) (n a : Nat) (v : Byte) (h : Memory.wfFrom n m = true)
    (hn : n ≤ a) (ha : a < Config.memorySize) : Memory.wfFrom n (Memory.write m a v) = true := by
  induction m generalizing n with
  | nil =>
    simp only [Memory.write]
    split <;> simp_all [Memory.wfFrom]
  | cons c t ih =>
    obtain ⟨k, u⟩ := c
    simp only [Memory.wfFrom, Bool.and_eq_true, decide_eq_true_eq] at h
    have hu := h.1.2
    simp only [Memory.write]
    split
    · split
      · simp_all [Memory.wfFrom]
      · simp_all [Memory.wfFrom]
    · split
      · split
        · exact Memory.wfFrom_mono t (k + 1) n h.2 (by omega)
        · simp_all [Memory.wfFrom]
      · have := ih (k + 1) h.2 (by omega)
        simp_all [Memory.wfFrom]

/-- A write keeps the canonical form. -/
theorem Memory.wf_write (m : Memory) (a : Addr) (v : Byte) (h : m.wf = true) :
    (Memory.write m a.toNat v).wf = true :=
  Memory.wfFrom_write m 0 a.toNat v h (by omega) (by simpa [Config.memorySize] using a.isLt)

/-! ### The bus (R43) -/

@[simp] theorem Bus.place_ram (a : Addr) : Bus.ram.place a = .ram a := rfl
@[simp] theorem Bus.hasDevice_ram : Bus.ram.hasDevice = false := rfl
@[simp] theorem Bus.reply_ram (m : Memory) (h : List BusAccess) (a : Addr) :
    Bus.ram.reply m h a = m.read a.toNat := rfl
@[simp] theorem Bus.store_ram (m : Memory) (a : Addr) (v : Byte) :
    Bus.ram.store m a v = m.write a.toNat v := rfl

/-- Where a bus puts an address is a device only if the bus has one. -/
theorem Bus.place_ne_device (b : Bus) (h : b.hasDevice = false) (a : Addr) (id : Nat) (x : Addr) :
    b.place a ≠ .device id x := by
  induction b generalizing a with
  | nil => simp [Bus.place]
  | cons r t ih =>
    obtain ⟨base, size, kind⟩ := r
    simp only [Bus.hasDevice, Bool.or_eq_false_iff] at h
    simp only [Bus.place]
    split
    · cases kind <;> simp_all
    · exact ih h.2 a

/-- Without a device, a reply depends on the memory alone. -/
theorem Bus.reply_of_noDevice (b : Bus) (hb : b.hasDevice = false) (m : Memory)
    (h h' : List BusAccess) (a : Addr) : b.reply m h a = b.reply m h' a := by
  unfold Bus.reply
  cases hp : b.place a with
  | ram c => rfl
  | rom c => rfl
  | device id x => exact absurd hp (b.place_ne_device hb a id x)

/-- The write callback keeps the canonical form. -/
theorem Bus.store_wf (b : Bus) (m : Memory) (a : Addr) (v : Byte) (h : m.wf = true) :
    (b.store m a v).wf = true := by
  unfold Bus.store
  cases b.place a with
  | ram c => exact Memory.wf_write m c v h
  | rom c => exact h
  | device id x => exact h

/-- The write callback changes at most the RAM cell behind the address. -/
theorem Bus.read_store_of_ne (b : Bus) (m : Memory) (a k : Addr) (v : Byte)
    (h : b.place a ≠ .ram k) : (b.store m a v).read k.toNat = m.read k.toNat := by
  unfold Bus.store
  cases hp : b.place a with
  | ram c =>
    exact Memory.read_write_of_ne m c.toNat k.toNat v fun e => h (by
      rw [hp, BitVec.eq_of_toNat_eq e])
  | rom c => rfl
  | device id x => rfl

/-! ### What a read returns -/

/-- On the default bus a read returns the memory's byte. -/
theorem State.byteAt_of_ram (s : State) (h : s.bus = Bus.ram) (a : Addr) :
    s.byteAt a = s.mem.read a.toNat := by
  rw [State.byteAt, h]
  rfl

/-- On a bus without a device a read depends on the memory alone. -/
theorem State.byteAt_of_noDevice {s t : State} (hb : t.bus = s.bus) (hm : t.mem = s.mem)
    (h : s.bus.hasDevice = false) (a : Addr) : t.byteAt a = s.byteAt a := by
  rw [State.byteAt, State.byteAt, hb, hm]
  exact Bus.reply_of_noDevice _ h _ _ _ _

/-- On the default bus a read depends on the memory alone. -/
theorem State.byteAt_congr_of_ram {s t : State} (hb : t.bus = s.bus) (hm : t.mem = s.mem)
    (h : s.bus = Bus.ram) (a : Addr) : t.byteAt a = s.byteAt a :=
  State.byteAt_of_noDevice hb hm (by rw [h]; rfl) a

/-- On the default bus recording a read changes no later one. -/
theorem State.noteRead_byteAt_of_ram (s : State) (h : s.bus = Bus.ram) (b a : Addr) :
    (s.noteRead b).byteAt a = s.byteAt a := State.byteAt_congr_of_ram (by rfl) (by rfl) h a

/-- On the default bus recording reads changes no later one. -/
theorem State.noteReads_byteAt_of_ram (s : State) (h : s.bus = Bus.ram) (l : List Addr) (a : Addr) :
    (s.noteReads l).byteAt a = s.byteAt a :=
  State.byteAt_congr_of_ram (by simp) (by simp) h a

/-- A call begins with every byte reading as after the call before. -/
@[simp] theorem State.beginCall_byteAt (s : State) (a : Addr) : s.beginCall.byteAt a = s.byteAt a := by
  cases h : s.bus.hasDevice with
  | true => simp [State.byteAt, State.history, h]
  | false => exact State.byteAt_of_noDevice (by rfl) (by rfl) h a

/-- What a read returns after some reads is fixed by bus, memory and history. -/
theorem State.noteReads_byteAt_congr (l : List Addr) (a : Addr) {s t : State} (hb : t.bus = s.bus)
    (hm : t.mem = s.mem) (hh : t.history = s.history) :
    (t.noteReads l).byteAt a = (s.noteReads l).byteAt a := by
  induction l generalizing s t with
  | nil => simp only [State.noteReads_nil, State.byteAt, hb, hm, hh]
  | cons b l ih =>
    refine ih (s := s.noteRead b) (t := t.noteRead b) hb hm ?_
    simp only [State.history] at hh
    simp [State.history, State.byteAt, hb, hm, hh]

/-- A call begins with every byte reading as after the call before, after some reads too. -/
theorem State.beginCall_noteReads_byteAt (s : State) (l : List Addr) (a : Addr) :
    (s.beginCall.noteReads l).byteAt a = (s.noteReads l).byteAt a := by
  cases h : s.bus.hasDevice with
  | true => exact State.noteReads_byteAt_congr l a rfl rfl (by simp [State.history, h])
  | false => exact State.byteAt_of_noDevice (by simp) (by simp) (by simpa using h) a

/-! ### What a write changes -/

/-- A change of memory limited to cells is limited to addresses on the default bus. -/
theorem KeepsMemory.of_cells {s t : State} {as : List Addr} (hb : t.bus = s.bus)
    (h : ∀ k : Addr, (∀ a ∈ as, s.bus.place a ≠ .ram k) →
      t.mem.read k.toNat = s.mem.read k.toNat) : KeepsMemory s t as where
  cells := h
  bytes hr a ha := by
    rw [State.byteAt_of_ram t (hb.trans hr), State.byteAt_of_ram s hr]
    refine h a fun x hx => ?_
    rw [hr, Bus.place_ram]
    rintro ⟨⟩
    exact ha hx

/-- What leaves the memory alone keeps it. -/
theorem KeepsMemory.of_mem {s t : State} {as : List Addr} (hb : t.bus = s.bus)
    (hm : t.mem = s.mem) : KeepsMemory s t as :=
  .of_cells hb fun k _ => by rw [hm]

/-- Keeping memory is a claim about the bus and the memory only. -/
theorem KeepsMemory.congr {s s' t t' : State} {as : List Addr} (h : KeepsMemory s t as)
    (hb : t'.bus = s'.bus) (hm : t'.mem = t.mem) (hb' : s'.bus = s.bus := by rfl)
    (hm' : s'.mem = s.mem := by rfl) : KeepsMemory s' t' as :=
  .of_cells hb fun k hk => by rw [hm, hm']; exact h.cells k (by rwa [← hb'])

/-- Two changes one after the other change at most what either does. -/
theorem KeepsMemory.trans {s t u : State} {as as' : List Addr} (h : KeepsMemory s t as)
    (h' : KeepsMemory t u as') (hb : t.bus = s.bus) (hb' : u.bus = s.bus) :
    KeepsMemory s u (as ++ as') :=
  .of_cells hb' fun k hk => by
    rw [h'.cells k fun a ha => by rw [hb]; exact hk a (List.mem_append_right _ ha)]
    exact h.cells k fun a ha => hk a (List.mem_append_left _ ha)

/-- A write changes at most the memory behind its address. -/
theorem memWrite_keepsMemory (a : Addr) (v : Byte) (s : State) :
    KeepsMemory s (memWrite a v s) [a] :=
  .of_cells (by rfl) fun k hk => Bus.read_store_of_ne _ _ _ _ _ (hk a (by simp))

/-- On the default bus, a read of a byte after a write of another one. -/
theorem memWrite_byteAt_of_ne (a b : Addr) (v : Byte) (s : State) (hr : s.bus = Bus.ram)
    (h : b ≠ a) : (memWrite a v s).byteAt b = s.byteAt b :=
  (memWrite_keepsMemory a v s).bytes hr b (by simpa using h)

/-- On the default bus, a read of a byte just written. -/
theorem memWrite_byteAt_same (a : Addr) (v : Byte) (s : State) (hr : s.bus = Bus.ram)
    (h : s.mem.wf = true) : (memWrite a v s).byteAt a = v := by
  rw [State.byteAt_of_ram _ (by exact hr), memWrite_mem, hr]
  exact Memory.read_write_same s.mem a.toNat v h

/-- Placing an instruction keeps the canonical form. -/
theorem storeBytes_wf (m : Memory) (a : Addr) (l : List Byte) (h : m.wf = true) :
    (storeBytes m a l).wf = true := by
  induction l generalizing m a with
  | nil => exact h
  | cons b t ih => exact ih _ _ (Memory.wf_write m a b h)

end Sys2Proof.Machine
end

