-- ==== Sys2Proof/Laws/Ops.lean ====
section
/-! SUPPORT. What the stack, interrupt entry and the return from it do to every field of the state,
and the stack's addresses. -/

namespace Sys2Proof.Machine

/-! ### One access -/

@[simp] theorem memRead_fst (a : Addr) (s : State) : (memRead a s).1 = s.byteAt a := rfl
@[simp] theorem memRead_snd (a : Addr) (s : State) : (memRead a s).2 = s.noteRead a := rfl
@[simp] theorem read16_fst (l h : Addr) (s : State) : (read16 l h s).1 = s.wordAt l h := rfl
@[simp] theorem read16_snd (l h : Addr) (s : State) : (read16 l h s).2 = s.noteReads [l, h] := rfl
@[simp] theorem pull_fst (s : State) : (pull s).1 = s.byteAt (stackAddr (s.sp + 1)) := rfl
@[simp] theorem pullWord_fst (s : State) :
    (pullWord s).1 = s.wordAt (stackAddr (s.sp + 1)) (stackAddr (s.sp + 1 + 1)) := by
  simp only [pullWord, State.wordAt]; rfl

/-! ### `push` (R50) -/

@[simp] theorem push_a (v : Byte) (s : State) : (push v s).a = s.a := rfl
@[simp] theorem push_x (v : Byte) (s : State) : (push v s).x = s.x := rfl
@[simp] theorem push_y (v : Byte) (s : State) : (push v s).y = s.y := rfl
@[simp] theorem push_sp (v : Byte) (s : State) : (push v s).sp = s.sp - 1 := rfl
@[simp] theorem push_pc (v : Byte) (s : State) : (push v s).pc = s.pc := rfl
@[simp] theorem push_p (v : Byte) (s : State) : (push v s).p = s.p := rfl
@[simp] theorem push_ea (v : Byte) (s : State) : (push v s).ea = s.ea := rfl
@[simp] theorem push_cur (v : Byte) (s : State) : (push v s).cur = s.cur := rfl
@[simp] theorem push_pending (v : Byte) (s : State) : (push v s).pending = s.pending := rfl
@[simp] theorem push_powered (v : Byte) (s : State) : (push v s).powered = s.powered := rfl
@[simp] theorem push_traceEnabled (v : Byte) (s : State) :
    (push v s).traceEnabled = s.traceEnabled := rfl
@[simp] theorem push_bus (v : Byte) (s : State) : (push v s).bus = s.bus := rfl
@[simp] theorem push_mem (v : Byte) (s : State) :
    (push v s).mem = s.bus.store s.mem (stackAddr s.sp) v := rfl
@[simp] theorem push_trace (v : Byte) (s : State) : (push v s).trace = s.trace := rfl
@[simp] theorem push_accesses (v : Byte) (s : State) :
    (push v s).accesses = s.accesses ++ [.write (stackAddr s.sp) v] := rfl
@[simp] theorem push_past (v : Byte) (s : State) : (push v s).past = s.past := rfl
@[simp] theorem push_flag (v : Byte) (s : State) (f : Flag) : (push v s).flag f = s.flag f := rfl

/-! ### `pull` (R51) -/

@[simp] theorem pull_a (s : State) : ((pull s).2).a = s.a := rfl
@[simp] theorem pull_x (s : State) : ((pull s).2).x = s.x := rfl
@[simp] theorem pull_y (s : State) : ((pull s).2).y = s.y := rfl
@[simp] theorem pull_sp (s : State) : ((pull s).2).sp = s.sp + 1 := rfl
@[simp] theorem pull_pc (s : State) : ((pull s).2).pc = s.pc := rfl
@[simp] theorem pull_p (s : State) : ((pull s).2).p = s.p := rfl
@[simp] theorem pull_ea (s : State) : ((pull s).2).ea = s.ea := rfl
@[simp] theorem pull_cur (s : State) : ((pull s).2).cur = s.cur := rfl
@[simp] theorem pull_pending (s : State) : ((pull s).2).pending = s.pending := rfl
@[simp] theorem pull_powered (s : State) : ((pull s).2).powered = s.powered := rfl
@[simp] theorem pull_traceEnabled (s : State) : ((pull s).2).traceEnabled = s.traceEnabled := rfl
@[simp] theorem pull_bus (s : State) : ((pull s).2).bus = s.bus := rfl
@[simp] theorem pull_mem (s : State) : ((pull s).2).mem = s.mem := rfl
@[simp] theorem pull_trace (s : State) : ((pull s).2).trace = s.trace := rfl
@[simp] theorem pull_accesses (s : State) :
    ((pull s).2).accesses =
      s.accesses ++ [.read (stackAddr (s.sp + 1)) (s.byteAt (stackAddr (s.sp + 1)))] := rfl
@[simp] theorem pull_past (s : State) : ((pull s).2).past = s.past := rfl
@[simp] theorem pull_byteAt (s : State) (k : Addr) :
    (pull s).2.byteAt k = (s.noteRead (stackAddr (s.sp + 1))).byteAt k := rfl
@[simp] theorem pull_wordAt (s : State) (l h : Addr) :
    (pull s).2.wordAt l h = (s.noteRead (stackAddr (s.sp + 1))).wordAt l h := rfl
@[simp] theorem pull_flag (s : State) (f : Flag) : ((pull s).2).flag f = s.flag f := rfl

/-! ### `pushWord` (R44) -/

@[simp] theorem pushWord_a (w : Addr) (s : State) : (pushWord w s).a = s.a := by simp [pushWord]
@[simp] theorem pushWord_x (w : Addr) (s : State) : (pushWord w s).x = s.x := by simp [pushWord]
@[simp] theorem pushWord_y (w : Addr) (s : State) : (pushWord w s).y = s.y := by simp [pushWord]
@[simp] theorem pushWord_sp (w : Addr) (s : State) :
    (pushWord w s).sp = s.sp - 1 - 1 := by simp [pushWord]
@[simp] theorem pushWord_pc (w : Addr) (s : State) : (pushWord w s).pc = s.pc := by simp [pushWord]
@[simp] theorem pushWord_p (w : Addr) (s : State) : (pushWord w s).p = s.p := by simp [pushWord]
@[simp] theorem pushWord_ea (w : Addr) (s : State) : (pushWord w s).ea = s.ea := by simp [pushWord]
@[simp] theorem pushWord_cur (w : Addr) (s : State) :
    (pushWord w s).cur = s.cur := by simp [pushWord]
@[simp] theorem pushWord_pending (w : Addr) (s : State) :
    (pushWord w s).pending = s.pending := by simp [pushWord]
@[simp] theorem pushWord_powered (w : Addr) (s : State) :
    (pushWord w s).powered = s.powered := by simp [pushWord]
@[simp] theorem pushWord_traceEnabled (w : Addr) (s : State) :
    (pushWord w s).traceEnabled = s.traceEnabled := by simp [pushWord]
@[simp] theorem pushWord_bus (w : Addr) (s : State) :
    (pushWord w s).bus = s.bus := by simp [pushWord]
@[simp] theorem pushWord_mem (w : Addr) (s : State) :
    (pushWord w s).mem = (push (loByte w) (push (hiByte w) s)).mem := by simp [pushWord]
@[simp] theorem pushWord_trace (w : Addr) (s : State) :
    (pushWord w s).trace = s.trace := by simp [pushWord]
@[simp] theorem pushWord_accesses (w : Addr) (s : State) :
    (pushWord w s).accesses =
      s.accesses ++ [.write (stackAddr s.sp) (hiByte w), .write (stackAddr (s.sp - 1)) (loByte w)] :=
        by simp [pushWord]
@[simp] theorem pushWord_past (w : Addr) (s : State) :
    (pushWord w s).past = s.past := by simp [pushWord]
@[simp] theorem pushWord_flag (w : Addr) (s : State) (f : Flag) :
    (pushWord w s).flag f = s.flag f := by simp [pushWord]

/-! ### `pullWord` (R44) -/

@[simp] theorem pullWord_a (s : State) : ((pullWord s).2).a = s.a := by simp [pullWord]
@[simp] theorem pullWord_x (s : State) : ((pullWord s).2).x = s.x := by simp [pullWord]
@[simp] theorem pullWord_y (s : State) : ((pullWord s).2).y = s.y := by simp [pullWord]
@[simp] theorem pullWord_sp (s : State) : ((pullWord s).2).sp = s.sp + 1 + 1 := by simp [pullWord]
@[simp] theorem pullWord_pc (s : State) : ((pullWord s).2).pc = s.pc := by simp [pullWord]
@[simp] theorem pullWord_p (s : State) : ((pullWord s).2).p = s.p := by simp [pullWord]
@[simp] theorem pullWord_ea (s : State) : ((pullWord s).2).ea = s.ea := by simp [pullWord]
@[simp] theorem pullWord_cur (s : State) : ((pullWord s).2).cur = s.cur := by simp [pullWord]
@[simp] theorem pullWord_pending (s : State) :
    ((pullWord s).2).pending = s.pending := by simp [pullWord]
@[simp] theorem pullWord_powered (s : State) :
    ((pullWord s).2).powered = s.powered := by simp [pullWord]
@[simp] theorem pullWord_traceEnabled (s : State) :
    ((pullWord s).2).traceEnabled = s.traceEnabled := by simp [pullWord]
@[simp] theorem pullWord_bus (s : State) : ((pullWord s).2).bus = s.bus := by simp [pullWord]
@[simp] theorem pullWord_mem (s : State) : ((pullWord s).2).mem = s.mem := by simp [pullWord]
@[simp] theorem pullWord_trace (s : State) : ((pullWord s).2).trace = s.trace := by simp [pullWord]
@[simp] theorem pullWord_accesses (s : State) :
    ((pullWord s).2).accesses =
      (s.noteReads [stackAddr (s.sp + 1), stackAddr (s.sp + 1 + 1)]).accesses := rfl
@[simp] theorem pullWord_past (s : State) : ((pullWord s).2).past = s.past := by simp [pullWord]
@[simp] theorem pullWord_flag (s : State) (f : Flag) :
    ((pullWord s).2).flag f = s.flag f := by simp [pullWord]

/-! ### `enter` (R158) -/

@[simp] theorem enter_a (b : Bool) (vec : Addr) (s : State) :
    (enter b vec s).a = s.a := by simp [enter]
@[simp] theorem enter_x (b : Bool) (vec : Addr) (s : State) :
    (enter b vec s).x = s.x := by simp [enter]
@[simp] theorem enter_y (b : Bool) (vec : Addr) (s : State) :
    (enter b vec s).y = s.y := by simp [enter]
@[simp] theorem enter_sp (b : Bool) (vec : Addr) (s : State) :
    (enter b vec s).sp = s.sp - 1 - 1 - 1 := by simp [enter]
@[simp] theorem enter_pc (b : Bool) (vec : Addr) (s : State) :
    (enter b vec s).pc =
      (push (pushedP s.p b) (pushWord s.pc s)).wordAt vec (vec + 1) := by simp [enter]
@[simp] theorem enter_p (b : Bool) (vec : Addr) (s : State) :
    (enter b vec s).p = putFlag (putFlag s.p .I true) .U true := by simp [enter]
@[simp] theorem enter_ea (b : Bool) (vec : Addr) (s : State) :
    (enter b vec s).ea = s.ea := by simp [enter]
@[simp] theorem enter_cur (b : Bool) (vec : Addr) (s : State) :
    (enter b vec s).cur = s.cur := by simp [enter]
@[simp] theorem enter_pending (b : Bool) (vec : Addr) (s : State) :
    (enter b vec s).pending = s.pending := by simp [enter]
@[simp] theorem enter_powered (b : Bool) (vec : Addr) (s : State) :
    (enter b vec s).powered = s.powered := by simp [enter]
@[simp] theorem enter_traceEnabled (b : Bool) (vec : Addr) (s : State) :
    (enter b vec s).traceEnabled = s.traceEnabled := by simp [enter]
@[simp] theorem enter_bus (b : Bool) (vec : Addr) (s : State) :
    (enter b vec s).bus = s.bus := by simp [enter]
@[simp] theorem enter_mem (b : Bool) (vec : Addr) (s : State) :
    (enter b vec s).mem = (push (pushedP s.p b) (pushWord s.pc s)).mem := by simp [enter]
@[simp] theorem enter_trace (b : Bool) (vec : Addr) (s : State) :
    (enter b vec s).trace = s.trace := by simp [enter]
@[simp] theorem enter_accesses (b : Bool) (vec : Addr) (s : State) :
    (enter b vec s).accesses =
      ((push (pushedP s.p b) (pushWord s.pc s)).noteReads [vec, vec + 1]).accesses := rfl
@[simp] theorem enter_past (b : Bool) (vec : Addr) (s : State) :
    (enter b vec s).past = s.past := by simp [enter]
@[simp] theorem enter_flag (b : Bool) (vec : Addr) (s : State) (f : Flag) :
    (enter b vec s).flag f = getFlag (putFlag (putFlag s.p .I true) .U true) f := by simp [enter]

/-! ### `returnFromInterrupt` (R144) -/

@[simp] theorem returnFromInterrupt_a (s : State) :
    (returnFromInterrupt s).a = s.a := by simp [returnFromInterrupt]
@[simp] theorem returnFromInterrupt_x (s : State) :
    (returnFromInterrupt s).x = s.x := by simp [returnFromInterrupt]
@[simp] theorem returnFromInterrupt_y (s : State) :
    (returnFromInterrupt s).y = s.y := by simp [returnFromInterrupt]
@[simp] theorem returnFromInterrupt_sp (s : State) :
    (returnFromInterrupt s).sp = s.sp + 1 + 1 + 1 := by simp [returnFromInterrupt]
@[simp] theorem returnFromInterrupt_pc (s : State) :
    (returnFromInterrupt s).pc = (pullWord (pull s).2).1 := by simp [returnFromInterrupt]
@[simp] theorem returnFromInterrupt_p (s : State) :
    (returnFromInterrupt s).p = loadP (pull s).1 := by simp [returnFromInterrupt]
@[simp] theorem returnFromInterrupt_ea (s : State) :
    (returnFromInterrupt s).ea = s.ea := by simp [returnFromInterrupt]
@[simp] theorem returnFromInterrupt_cur (s : State) :
    (returnFromInterrupt s).cur = s.cur := by simp [returnFromInterrupt]
@[simp] theorem returnFromInterrupt_pending (s : State) :
    (returnFromInterrupt s).pending = s.pending := by simp [returnFromInterrupt]
@[simp] theorem returnFromInterrupt_powered (s : State) :
    (returnFromInterrupt s).powered = s.powered := by simp [returnFromInterrupt]
@[simp] theorem returnFromInterrupt_traceEnabled (s : State) :
    (returnFromInterrupt s).traceEnabled = s.traceEnabled := by simp [returnFromInterrupt]
@[simp] theorem returnFromInterrupt_bus (s : State) :
    (returnFromInterrupt s).bus = s.bus := by simp [returnFromInterrupt]
@[simp] theorem returnFromInterrupt_mem (s : State) :
    (returnFromInterrupt s).mem = s.mem := by simp [returnFromInterrupt]
@[simp] theorem returnFromInterrupt_trace (s : State) :
    (returnFromInterrupt s).trace = s.trace := by simp [returnFromInterrupt]
@[simp] theorem returnFromInterrupt_accesses (s : State) :
    (returnFromInterrupt s).accesses =
      (s.noteReads [stackAddr (s.sp + 1), stackAddr (s.sp + 1 + 1), stackAddr (s.sp + 1 + 1 + 1)]).accesses :=
        rfl
@[simp] theorem returnFromInterrupt_past (s : State) :
    (returnFromInterrupt s).past = s.past := by simp [returnFromInterrupt]
@[simp] theorem returnFromInterrupt_flag (s : State) (f : Flag) :
    (returnFromInterrupt s).flag f = getFlag (loadP (pull s).1) f := by simp [returnFromInterrupt]

/-! ### Stack addresses (R18) -/

/-- SP indexes page 1: the stack address is 0x0100 + SP. -/
theorem stackAddr_eq (sp : Byte) : stackAddr sp = 0x0100 + zext16 sp := by
  have : 0x0100#16 &&& BitVec.setWidth 16 sp = 0#16 := by
    ext k hk
    simp only [BitVec.getElem_and, BitVec.getElem_setWidth]
    by_cases h : k < 8
    · match k, h with
      | 0, _ | 1, _ | 2, _ | 3, _ | 4, _ | 5, _ | 6, _ | 7, _ => simp
    · simp [BitVec.getLsbD_of_ge sp k (by omega)]
  exact (BitVec.add_eq_or_of_and_eq_zero _ _ this).symm

theorem stackAddr_toNat (sp : Byte) : (stackAddr sp).toNat = 256 + sp.toNat := by
  have := sp.isLt
  have h : (0x0100 : Addr).toNat = 256 := rfl
  simp only [stackAddr_eq, zext16, BitVec.toNat_add, BitVec.toNat_setWidth, h]
  omega

/-- Different values of SP are different stack slots. -/
@[simp] theorem stackAddr_inj (a b : Byte) : stackAddr a = stackAddr b ↔ a = b := by
  refine ⟨fun h => ?_, fun h => h ▸ rfl⟩
  have := congrArg BitVec.toNat h
  simp only [stackAddr_toNat] at this
  exact BitVec.eq_of_toNat_eq (by omega)

/-- An address outside page 1 is no stack slot. -/
theorem stackAddr_ne_of_high (sp : Byte) (a : Addr) (h : 512 ≤ a.toNat) : a ≠ stackAddr sp := by
  intro e
  have := stackAddr_toNat sp
  have := sp.isLt
  rw [e] at h
  omega

/-- On the default bus a push leaves every byte but its slot alone. -/
theorem push_byteAt_of_ne (v : Byte) (s : State) (k : Addr) (hb : s.bus = Bus.ram)
    (h : k ≠ stackAddr s.sp) : (push v s).byteAt k = s.byteAt k :=
        memWrite_byteAt_of_ne _ k v s hb h

/-- On the default bus a push stores its byte in its slot. -/
theorem push_byteAt_same (v : Byte) (s : State) (hb : s.bus = Bus.ram) (h : s.mem.wf = true) :
    (push v s).byteAt (stackAddr s.sp) = v := memWrite_byteAt_same _ v s hb h

/-- A push changes memory at most behind its slot. -/
theorem push_keepsMemory (v : Byte) (s : State) : KeepsMemory s (push v s) [stackAddr s.sp] :=
  (memWrite_keepsMemory (stackAddr s.sp) v s).congr rfl rfl

/-- A push keeps the canonical form. -/
theorem push_wf (v : Byte) (s : State) (h : s.mem.wf = true) : (push v s).mem.wf = true :=
  Bus.store_wf s.bus s.mem _ v h

theorem pushWord_wf (w : Addr) (s : State) (h : s.mem.wf = true) : (pushWord w s).mem.wf = true :=
  push_wf _ _ (push_wf _ _ h)

/-- Interrupt entry keeps the canonical form. -/
theorem enter_wf (b : Bool) (vec : Addr) (s : State) (h : s.mem.wf = true) :
    (enter b vec s).mem.wf = true := by
  rw [enter_mem]
  exact push_wf _ _ (pushWord_wf _ _ h)

end Sys2Proof.Machine
end

