-- ==== Sys2Proof/Laws/Operands.lean ====
section
/-! SUPPORT. What the shared skeletons of the instruction semantics do. -/

namespace Sys2Proof.Machine

/-- What the resolver's reads leave to be read. -/
theorem resolve_byteAt (i : Instr) (s : State) (a : Addr) :
    (resolve i s).byteAt a = (s.noteReads (pointerReads i.operand s)).byteAt a := rfl

/-- What recording reads adds to the record, the bytes left out: one read of each address, in order. -/
@[simp] theorem noteReads_shape (s : State) (l : List Addr) :
    (s.noteReads l).accesses.map BusAccess.shape =
      s.accesses.map BusAccess.shape ++ l.map (false, ·) := by
  induction l generalizing s with
  | nil => simp
  | cons a l ih => simp [State.noteReads_cons, ih, BusAccess.shape]

/-- The operand an instruction works on, in the terms of the state before it (R67). -/
@[simp] theorem operandByte_fst (i : Instr) (s : State) :
    (operandByte i (resolve i s)).1 = memOperand i s := by
  unfold operandByte memOperand
  cases h : i.operand <;> simp [h, resolve_byteAt]

/-- Reading the operand only records the read, and an immediate makes none. -/
@[simp] theorem operandByte_snd (i : Instr) (s : State) :
    (operandByte i s).2 = s.noteReads (if i.operand.mode = .IMM then [] else [s.ea]) := by
  unfold operandByte
  cases h : i.operand <;> simp [Operand.mode]

/-- A plain instruction answers the state its semantics give, with its cycles charged. -/
theorem runPlain_eq (i : Instr) (f : State → State) (s : State) :
    runPlain i f s =
      .next ((f (resolve i s)).setPending (i.entry.baseCycles + resolverExtra i s)) := rfl

/-- A reading instruction answers its semantics on the memory operand. -/
theorem runRead_eq (i : Instr) (f : Byte → State → State) (s : State) :
    runRead i f s =
      .next ((f (memOperand i s) ((resolve i s).noteReads
        (if i.operand.mode = .IMM then [] else [effectiveAddress i.operand s]))).setPending
        (i.entry.baseCycles + resolverExtra i s)) := by
  simp only [runRead, runPlain_eq, operandByte_fst, operandByte_snd, resolve_ea]

/-- A store answers the state with one byte written at the effective address. -/
theorem runStore_eq (i : Instr) (reg : State → Byte) (s : State) :
    runStore i reg s =
      .next ((memWrite (effectiveAddress i.operand s) (reg (resolve i s)) (resolve i s)).setPending
        (i.entry.baseCycles + resolverExtra i s)) := rfl

/-- A read-modify-write on A writes A and P and makes no access. -/
theorem modify_acc (o : Operand) (f : Byte → Byte → ModifyResult) (s : State)
    (h : o = .acc) : modify o f s = (s.setA (f s.a s.p).value).setP (f s.a s.p).p := by
  subst h; rfl

/-- A read-modify-write on memory reads and writes the byte at `ea` once and writes P. -/
theorem modify_mem (o : Operand) (f : Byte → Byte → ModifyResult) (s : State)
    (h : o.mode ≠ .ACC) (h' : o.mode ≠ .IMP) :
    modify o f s =
      (memWrite s.ea (f (s.byteAt s.ea) s.p).value (s.noteReads [s.ea])).setP
        (f (s.byteAt s.ea) s.p).p := by
  cases o <;> first | exact absurd rfl h | exact absurd rfl h' | rfl

/-- A branch not taken only advances PC. -/
theorem runBranch_not_taken (i : Instr) (cond : State → Bool) (s : State)
    (h : cond (resolve i s) = false) :
    runBranch i cond s = .next ((resolve i s).setPending i.entry.baseCycles) := by
  simp [runBranch, h, complete]

/-- A taken branch goes to the next instruction's address plus the offset. -/
theorem runBranch_taken (i : Instr) (cond : State → Bool) (s : State)
    (h : cond (resolve i s) = true) :
    runBranch i cond s =
      .next (((resolve i s).setPc (nextPc i s + effectiveAddress i.operand s)).setPending
        (i.entry.baseCycles +
          branchExtra (nextPc i s) (nextPc i s + effectiveAddress i.operand s))) := by
  simp [runBranch, h, complete, nextPc]

/-! ### Entry through a vector (R158) -/

/-- The three slots an entry pushes to are different stack slots. -/
theorem slots_ne (sp : Byte) : sp ≠ sp - 1 ∧ sp ≠ sp - 1 - 1 ∧ sp - 1 ≠ sp - 1 - 1 ∧
    sp - 2 = sp - 1 - 1 ∧ sp - 3 = sp - 1 - 1 - 1 := by
  refine ⟨?_, ?_, ?_, ?_, ?_⟩ <;> bv_omega

/-- On the default bus, the bytes an entry pushes: PC high, PC low, the status byte with B as given. -/
theorem enter_pushes (b : Bool) (vec : Addr) (s : State) (hb : s.bus = Bus.ram)
    (hw : s.mem.wf = true) :
    (enter b vec s).byteAt (stackAddr s.sp) = hiByte s.pc ∧
    (enter b vec s).byteAt (stackAddr (s.sp - 1)) = loByte s.pc ∧
    (enter b vec s).byteAt (stackAddr (s.sp - 2)) = pushedP s.p b := by
  obtain ⟨h1, h2, h3, h4, -⟩ := slots_ne s.sp
  have e (k : Addr) : (enter b vec s).byteAt k =
      (push (pushedP s.p b) (pushWord s.pc s)).byteAt k :=
    State.byteAt_congr_of_ram (by simp) (by simp) (by simpa using hb) k
  refine ⟨?_, ?_, ?_⟩
  · rw [e, push_byteAt_of_ne _ _ _ (by simpa using hb)
        (by rw [pushWord_sp, Ne, stackAddr_inj]; exact h2),
      pushWord, push_byteAt_of_ne _ _ _ (by simpa using hb)
        (by rw [push_sp, Ne, stackAddr_inj]; exact h1)]
    exact push_byteAt_same _ _ hb hw
  · rw [e, push_byteAt_of_ne _ _ _ (by simpa using hb)
      (by rw [pushWord_sp, Ne, stackAddr_inj]; exact h3), pushWord]
    exact push_byteAt_same _ _ hb (push_wf _ _ hw)
  · rw [e, h4]
    exact push_byteAt_same _ _ (by simpa using hb) (pushWord_wf _ _ hw)

/-- An entry changes memory at most behind the three slots it pushes to. -/
theorem enter_keepsMemory (b : Bool) (vec : Addr) (s : State) :
    KeepsMemory s (enter b vec s)
      [stackAddr s.sp, stackAddr (s.sp - 1), stackAddr (s.sp - 2)] := by
  rw [(slots_ne s.sp).2.2.2.1]
  refine KeepsMemory.congr ?_ (by simp) (enter_mem b vec s)
  exact (push_keepsMemory (hiByte s.pc) s).trans
    ((push_keepsMemory (loByte s.pc) _).trans (push_keepsMemory _ _) rfl rfl) rfl rfl

/-- What an entry leaves alone. -/
theorem enter_frame (b : Bool) (vec : Addr) (s : State) :
    Frame s (enter b vec s) [.SP] [.I, .U]
      [stackAddr s.sp, stackAddr (s.sp - 1), stackAddr (s.sp - 2)] := by
  refine ⟨?_, ?_, enter_keepsMemory b vec s, by simp, by simp, by simp⟩
  · intro r hr
    cases r <;> simp_all [State.reg]
  · intro f hf
    cases f <;> simp_all [State.flag]

/-- What an entry does on the bus, on any bus: the three writes, then the two reads of the vector, whose
bytes are the new PC. -/
theorem enter_accesses_pc (b : Bool) (vec : Addr) (s : State) :
    ∃ lo hi : Byte, (enter b vec s).pc = joinBytes hi lo ∧
      (enter b vec s).accesses = s.accesses ++ [.write (stackAddr s.sp) (hiByte s.pc),
        .write (stackAddr (s.sp - 1)) (loByte s.pc), .write (stackAddr (s.sp - 2)) (pushedP s.p b),
        .read vec lo, .read (vec + 1) hi] := by
  refine ⟨_, _, enter_pc b vec s, ?_⟩
  rw [enter_accesses, (slots_ne s.sp).2.2.2.1]
  simp [State.noteReads_cons]

/-- On the default bus, where an entry goes, for a vector outside the stack page. -/
theorem enter_pc_of_high (b : Bool) (vec : Addr) (s : State) (hb : s.bus = Bus.ram)
    (h0 : 512 ≤ vec.toNat) (h1 : 512 ≤ (vec + 1).toNat) :
    (enter b vec s).pc = joinBytes (s.byteAt (vec + 1)) (s.byteAt vec) := by
  have e (k : Addr) (h : 512 ≤ k.toNat) :
      (push (pushedP s.p b) (pushWord s.pc s)).byteAt k = s.byteAt k := by
    rw [← (enter_keepsMemory b vec s).bytes hb k (by
      simp [stackAddr_ne_of_high _ _ h])]
    exact State.byteAt_congr_of_ram (by simp) (by simp) (by simpa using hb) k
  rw [enter_pc, State.wordAt, State.noteRead_byteAt_of_ram _ (by simpa using hb), e _ h0, e _ h1]

end Sys2Proof.Machine
end

