-- ==== Sys2Proof/Laws/Exec.lean ====
section
/-! SUPPORT. `exec` by mnemonic: which skeleton and which semantics every form of a mnemonic runs. A
claim about a mnemonic in all its modes cites one of these. -/

namespace Sys2Proof.Machine

/-- The meaning of every instruction, written by mnemonic as `48_step_machine.md` R148 does. -/
def execByMnemonic (i : Instr) (s : State) : Outcome :=
  match i.mnemonic with
  | .LDA => runRead i loadA s
  | .LDX => runRead i loadX s
  | .LDY => runRead i loadY s
  | .STA => runStore i State.a s
  | .STX => runStore i State.x s
  | .STY => runStore i State.y s
  | .ADC => runRead i addToA s
  | .SBC => runRead i subFromA s
  | .CMP => runRead i (compareWith State.a) s
  | .CPX => runRead i (compareWith State.x) s
  | .CPY => runRead i (compareWith State.y) s
  | .AND => runRead i andA s
  | .ORA => runRead i orA s
  | .EOR => runRead i eorA s
  | .BIT => runRead i bitTest s
  | .ASL => runModify i aslByte s
  | .LSR => runModify i lsrByte s
  | .ROL => runModify i rolByte s
  | .ROR => runModify i rorByte s
  | .INC => runModify i incByte s
  | .DEC => runModify i decByte s
  | .INX => runPlain i (fun r => (r.setX (r.x + 1)).setNZ (r.x + 1)) s
  | .INY => runPlain i (fun r => (r.setY (r.y + 1)).setNZ (r.y + 1)) s
  | .DEX => runPlain i (fun r => (r.setX (r.x - 1)).setNZ (r.x - 1)) s
  | .DEY => runPlain i (fun r => (r.setY (r.y - 1)).setNZ (r.y - 1)) s
  | .TAX => runPlain i (fun r => (r.setX r.a).setNZ r.a) s
  | .TAY => runPlain i (fun r => (r.setY r.a).setNZ r.a) s
  | .TXA => runPlain i (fun r => (r.setA r.x).setNZ r.x) s
  | .TYA => runPlain i (fun r => (r.setA r.y).setNZ r.y) s
  | .TSX => runPlain i (fun r => (r.setX r.sp).setNZ r.sp) s
  | .TXS => runPlain i (fun r => r.setSp r.x) s
  | .CLC => runPlain i (State.setFlag · .C false) s
  | .SEC => runPlain i (State.setFlag · .C true) s
  | .CLI => runPlain i (State.setFlag · .I false) s
  | .SEI => runPlain i (State.setFlag · .I true) s
  | .CLD => runPlain i (State.setFlag · .D false) s
  | .SED => runPlain i (State.setFlag · .D true) s
  | .CLV => runPlain i (State.setFlag · .V false) s
  | .PHA => runPlain i (fun r => push r.a r) s
  | .PHP => runPlain i (fun r => push (pushedP r.p true) r) s
  | .PLA => runPlain i pullA s
  | .PLP => runPlain i pullP s
  | .BCC => runBranch i (fun r => !r.flag .C) s
  | .BCS => runBranch i (State.flag · .C) s
  | .BEQ => runBranch i (State.flag · .Z) s
  | .BNE => runBranch i (fun r => !r.flag .Z) s
  | .BMI => runBranch i (State.flag · .N) s
  | .BPL => runBranch i (fun r => !r.flag .N) s
  | .BVC => runBranch i (fun r => !r.flag .V) s
  | .BVS => runBranch i (State.flag · .V) s
  | .JMP => runPlain i (fun r => r.setPc r.ea) s
  | .JSR => runPlain i callSubroutine s
  | .RTS => runPlain i returnFromSubroutine s
  | .BRK => runPlain i softwareBreak s
  | .RTI => runPlain i returnFromInterrupt s
  | .NOP => runPlain i (fun r => r) s
  | .ILLEGAL => runPlain i (fun r => r) s

/-- The meanings of the forms of one mnemonic are one meaning. -/
theorem exec_eq_execByMnemonic (i : Instr) (s : State) : exec i s = execByMnemonic i s := by
  cases i <;> rfl

theorem exec_of_LDA (i : Instr) (s : State) (h : i.mnemonic = .LDA) :
    exec i s = runRead i loadA s := by
  rw [exec_eq_execByMnemonic, execByMnemonic, h]

theorem exec_of_LDX (i : Instr) (s : State) (h : i.mnemonic = .LDX) :
    exec i s = runRead i loadX s := by
  rw [exec_eq_execByMnemonic, execByMnemonic, h]

theorem exec_of_LDY (i : Instr) (s : State) (h : i.mnemonic = .LDY) :
    exec i s = runRead i loadY s := by
  rw [exec_eq_execByMnemonic, execByMnemonic, h]

theorem exec_of_STA (i : Instr) (s : State) (h : i.mnemonic = .STA) :
    exec i s = runStore i State.a s := by
  rw [exec_eq_execByMnemonic, execByMnemonic, h]

theorem exec_of_STX (i : Instr) (s : State) (h : i.mnemonic = .STX) :
    exec i s = runStore i State.x s := by
  rw [exec_eq_execByMnemonic, execByMnemonic, h]

theorem exec_of_STY (i : Instr) (s : State) (h : i.mnemonic = .STY) :
    exec i s = runStore i State.y s := by
  rw [exec_eq_execByMnemonic, execByMnemonic, h]

theorem exec_of_ADC (i : Instr) (s : State) (h : i.mnemonic = .ADC) :
    exec i s = runRead i addToA s := by
  rw [exec_eq_execByMnemonic, execByMnemonic, h]

theorem exec_of_SBC (i : Instr) (s : State) (h : i.mnemonic = .SBC) :
    exec i s = runRead i subFromA s := by
  rw [exec_eq_execByMnemonic, execByMnemonic, h]

theorem exec_of_CMP (i : Instr) (s : State) (h : i.mnemonic = .CMP) :
    exec i s = runRead i (compareWith State.a) s := by
  rw [exec_eq_execByMnemonic, execByMnemonic, h]

theorem exec_of_CPX (i : Instr) (s : State) (h : i.mnemonic = .CPX) :
    exec i s = runRead i (compareWith State.x) s := by
  rw [exec_eq_execByMnemonic, execByMnemonic, h]

theorem exec_of_CPY (i : Instr) (s : State) (h : i.mnemonic = .CPY) :
    exec i s = runRead i (compareWith State.y) s := by
  rw [exec_eq_execByMnemonic, execByMnemonic, h]

theorem exec_of_AND (i : Instr) (s : State) (h : i.mnemonic = .AND) :
    exec i s = runRead i andA s := by
  rw [exec_eq_execByMnemonic, execByMnemonic, h]

theorem exec_of_ORA (i : Instr) (s : State) (h : i.mnemonic = .ORA) :
    exec i s = runRead i orA s := by
  rw [exec_eq_execByMnemonic, execByMnemonic, h]

theorem exec_of_EOR (i : Instr) (s : State) (h : i.mnemonic = .EOR) :
    exec i s = runRead i eorA s := by
  rw [exec_eq_execByMnemonic, execByMnemonic, h]

theorem exec_of_BIT (i : Instr) (s : State) (h : i.mnemonic = .BIT) :
    exec i s = runRead i bitTest s := by
  rw [exec_eq_execByMnemonic, execByMnemonic, h]

theorem exec_of_ASL (i : Instr) (s : State) (h : i.mnemonic = .ASL) :
    exec i s = runModify i aslByte s := by
  rw [exec_eq_execByMnemonic, execByMnemonic, h]

theorem exec_of_LSR (i : Instr) (s : State) (h : i.mnemonic = .LSR) :
    exec i s = runModify i lsrByte s := by
  rw [exec_eq_execByMnemonic, execByMnemonic, h]

theorem exec_of_ROL (i : Instr) (s : State) (h : i.mnemonic = .ROL) :
    exec i s = runModify i rolByte s := by
  rw [exec_eq_execByMnemonic, execByMnemonic, h]

theorem exec_of_ROR (i : Instr) (s : State) (h : i.mnemonic = .ROR) :
    exec i s = runModify i rorByte s := by
  rw [exec_eq_execByMnemonic, execByMnemonic, h]

theorem exec_of_INC (i : Instr) (s : State) (h : i.mnemonic = .INC) :
    exec i s = runModify i incByte s := by
  rw [exec_eq_execByMnemonic, execByMnemonic, h]

theorem exec_of_DEC (i : Instr) (s : State) (h : i.mnemonic = .DEC) :
    exec i s = runModify i decByte s := by
  rw [exec_eq_execByMnemonic, execByMnemonic, h]

theorem exec_of_INX (i : Instr) (s : State) (h : i.mnemonic = .INX) :
    exec i s = runPlain i (fun r => (r.setX (r.x + 1)).setNZ (r.x + 1)) s := by
  rw [exec_eq_execByMnemonic, execByMnemonic, h]

theorem exec_of_INY (i : Instr) (s : State) (h : i.mnemonic = .INY) :
    exec i s = runPlain i (fun r => (r.setY (r.y + 1)).setNZ (r.y + 1)) s := by
  rw [exec_eq_execByMnemonic, execByMnemonic, h]

theorem exec_of_DEX (i : Instr) (s : State) (h : i.mnemonic = .DEX) :
    exec i s = runPlain i (fun r => (r.setX (r.x - 1)).setNZ (r.x - 1)) s := by
  rw [exec_eq_execByMnemonic, execByMnemonic, h]

theorem exec_of_DEY (i : Instr) (s : State) (h : i.mnemonic = .DEY) :
    exec i s = runPlain i (fun r => (r.setY (r.y - 1)).setNZ (r.y - 1)) s := by
  rw [exec_eq_execByMnemonic, execByMnemonic, h]

theorem exec_of_TAX (i : Instr) (s : State) (h : i.mnemonic = .TAX) :
    exec i s = runPlain i (fun r => (r.setX r.a).setNZ r.a) s := by
  rw [exec_eq_execByMnemonic, execByMnemonic, h]

theorem exec_of_TAY (i : Instr) (s : State) (h : i.mnemonic = .TAY) :
    exec i s = runPlain i (fun r => (r.setY r.a).setNZ r.a) s := by
  rw [exec_eq_execByMnemonic, execByMnemonic, h]

theorem exec_of_TXA (i : Instr) (s : State) (h : i.mnemonic = .TXA) :
    exec i s = runPlain i (fun r => (r.setA r.x).setNZ r.x) s := by
  rw [exec_eq_execByMnemonic, execByMnemonic, h]

theorem exec_of_TYA (i : Instr) (s : State) (h : i.mnemonic = .TYA) :
    exec i s = runPlain i (fun r => (r.setA r.y).setNZ r.y) s := by
  rw [exec_eq_execByMnemonic, execByMnemonic, h]

theorem exec_of_TSX (i : Instr) (s : State) (h : i.mnemonic = .TSX) :
    exec i s = runPlain i (fun r => (r.setX r.sp).setNZ r.sp) s := by
  rw [exec_eq_execByMnemonic, execByMnemonic, h]

theorem exec_of_TXS (i : Instr) (s : State) (h : i.mnemonic = .TXS) :
    exec i s = runPlain i (fun r => r.setSp r.x) s := by
  rw [exec_eq_execByMnemonic, execByMnemonic, h]

theorem exec_of_CLC (i : Instr) (s : State) (h : i.mnemonic = .CLC) :
    exec i s = runPlain i (State.setFlag · .C false) s := by
  rw [exec_eq_execByMnemonic, execByMnemonic, h]

theorem exec_of_SEC (i : Instr) (s : State) (h : i.mnemonic = .SEC) :
    exec i s = runPlain i (State.setFlag · .C true) s := by
  rw [exec_eq_execByMnemonic, execByMnemonic, h]

theorem exec_of_CLI (i : Instr) (s : State) (h : i.mnemonic = .CLI) :
    exec i s = runPlain i (State.setFlag · .I false) s := by
  rw [exec_eq_execByMnemonic, execByMnemonic, h]

theorem exec_of_SEI (i : Instr) (s : State) (h : i.mnemonic = .SEI) :
    exec i s = runPlain i (State.setFlag · .I true) s := by
  rw [exec_eq_execByMnemonic, execByMnemonic, h]

theorem exec_of_CLD (i : Instr) (s : State) (h : i.mnemonic = .CLD) :
    exec i s = runPlain i (State.setFlag · .D false) s := by
  rw [exec_eq_execByMnemonic, execByMnemonic, h]

theorem exec_of_SED (i : Instr) (s : State) (h : i.mnemonic = .SED) :
    exec i s = runPlain i (State.setFlag · .D true) s := by
  rw [exec_eq_execByMnemonic, execByMnemonic, h]

theorem exec_of_CLV (i : Instr) (s : State) (h : i.mnemonic = .CLV) :
    exec i s = runPlain i (State.setFlag · .V false) s := by
  rw [exec_eq_execByMnemonic, execByMnemonic, h]

theorem exec_of_PHA (i : Instr) (s : State) (h : i.mnemonic = .PHA) :
    exec i s = runPlain i (fun r => push r.a r) s := by
  rw [exec_eq_execByMnemonic, execByMnemonic, h]

theorem exec_of_PHP (i : Instr) (s : State) (h : i.mnemonic = .PHP) :
    exec i s = runPlain i (fun r => push (pushedP r.p true) r) s := by
  rw [exec_eq_execByMnemonic, execByMnemonic, h]

theorem exec_of_PLA (i : Instr) (s : State) (h : i.mnemonic = .PLA) :
    exec i s = runPlain i pullA s := by
  rw [exec_eq_execByMnemonic, execByMnemonic, h]

theorem exec_of_PLP (i : Instr) (s : State) (h : i.mnemonic = .PLP) :
    exec i s = runPlain i pullP s := by
  rw [exec_eq_execByMnemonic, execByMnemonic, h]

theorem exec_of_BCC (i : Instr) (s : State) (h : i.mnemonic = .BCC) :
    exec i s = runBranch i (fun r => !r.flag .C) s := by
  rw [exec_eq_execByMnemonic, execByMnemonic, h]

theorem exec_of_BCS (i : Instr) (s : State) (h : i.mnemonic = .BCS) :
    exec i s = runBranch i (State.flag · .C) s := by
  rw [exec_eq_execByMnemonic, execByMnemonic, h]

theorem exec_of_BEQ (i : Instr) (s : State) (h : i.mnemonic = .BEQ) :
    exec i s = runBranch i (State.flag · .Z) s := by
  rw [exec_eq_execByMnemonic, execByMnemonic, h]

theorem exec_of_BNE (i : Instr) (s : State) (h : i.mnemonic = .BNE) :
    exec i s = runBranch i (fun r => !r.flag .Z) s := by
  rw [exec_eq_execByMnemonic, execByMnemonic, h]

theorem exec_of_BMI (i : Instr) (s : State) (h : i.mnemonic = .BMI) :
    exec i s = runBranch i (State.flag · .N) s := by
  rw [exec_eq_execByMnemonic, execByMnemonic, h]

theorem exec_of_BPL (i : Instr) (s : State) (h : i.mnemonic = .BPL) :
    exec i s = runBranch i (fun r => !r.flag .N) s := by
  rw [exec_eq_execByMnemonic, execByMnemonic, h]

theorem exec_of_BVC (i : Instr) (s : State) (h : i.mnemonic = .BVC) :
    exec i s = runBranch i (fun r => !r.flag .V) s := by
  rw [exec_eq_execByMnemonic, execByMnemonic, h]

theorem exec_of_BVS (i : Instr) (s : State) (h : i.mnemonic = .BVS) :
    exec i s = runBranch i (State.flag · .V) s := by
  rw [exec_eq_execByMnemonic, execByMnemonic, h]

theorem exec_of_JMP (i : Instr) (s : State) (h : i.mnemonic = .JMP) :
    exec i s = runPlain i (fun r => r.setPc r.ea) s := by
  rw [exec_eq_execByMnemonic, execByMnemonic, h]

theorem exec_of_JSR (i : Instr) (s : State) (h : i.mnemonic = .JSR) :
    exec i s = runPlain i callSubroutine s := by
  rw [exec_eq_execByMnemonic, execByMnemonic, h]

theorem exec_of_RTS (i : Instr) (s : State) (h : i.mnemonic = .RTS) :
    exec i s = runPlain i returnFromSubroutine s := by
  rw [exec_eq_execByMnemonic, execByMnemonic, h]

theorem exec_of_BRK (i : Instr) (s : State) (h : i.mnemonic = .BRK) :
    exec i s = runPlain i softwareBreak s := by
  rw [exec_eq_execByMnemonic, execByMnemonic, h]

theorem exec_of_RTI (i : Instr) (s : State) (h : i.mnemonic = .RTI) :
    exec i s = runPlain i returnFromInterrupt s := by
  rw [exec_eq_execByMnemonic, execByMnemonic, h]

theorem exec_of_NOP (i : Instr) (s : State) (h : i.mnemonic = .NOP) :
    exec i s = runPlain i (fun r => r) s := by
  rw [exec_eq_execByMnemonic, execByMnemonic, h]

theorem exec_of_ILLEGAL (i : Instr) (s : State) (h : i.mnemonic = .ILLEGAL) :
    exec i s = runPlain i (fun r => r) s := by
  rw [exec_eq_execByMnemonic, execByMnemonic, h]

end Sys2Proof.Machine
end

