-- ==== Sys2Proof/Laws/PerInstr.lean ====
section
/-! SUPPORT. Facts about every instruction as syntax, one lemma per constructor (LAWS.json). -/

namespace Sys2Proof.Laws

/-- The encoding of an instruction has the length its mode gives it (`30_encoding.md` R58, R59). -/
def EncodeLength.Statement (i : Instr) : Prop := (encode i).length = i.length

/-- The operand form of an instruction is that of its table row's mode (`30_encoding.md` R57, R62). -/
def OperandMode.Statement (i : Instr) : Prop := i.operand.mode = i.mode

/-! ### EncodeLength -/

theorem EncodeLength.ldaImm (b : Byte) : EncodeLength.Statement (.ldaImm b) := rfl
theorem EncodeLength.ldaZp0 (b : Byte) : EncodeLength.Statement (.ldaZp0 b) := rfl
theorem EncodeLength.ldaZpx (b : Byte) : EncodeLength.Statement (.ldaZpx b) := rfl
theorem EncodeLength.ldaAbs (w : Addr) : EncodeLength.Statement (.ldaAbs w) := rfl
theorem EncodeLength.ldaAbx (w : Addr) : EncodeLength.Statement (.ldaAbx w) := rfl
theorem EncodeLength.ldaAby (w : Addr) : EncodeLength.Statement (.ldaAby w) := rfl
theorem EncodeLength.ldaIzx (b : Byte) : EncodeLength.Statement (.ldaIzx b) := rfl
theorem EncodeLength.ldaIzy (b : Byte) : EncodeLength.Statement (.ldaIzy b) := rfl
theorem EncodeLength.ldxImm (b : Byte) : EncodeLength.Statement (.ldxImm b) := rfl
theorem EncodeLength.ldxZp0 (b : Byte) : EncodeLength.Statement (.ldxZp0 b) := rfl
theorem EncodeLength.ldxZpy (b : Byte) : EncodeLength.Statement (.ldxZpy b) := rfl
theorem EncodeLength.ldxAbs (w : Addr) : EncodeLength.Statement (.ldxAbs w) := rfl
theorem EncodeLength.ldxAby (w : Addr) : EncodeLength.Statement (.ldxAby w) := rfl
theorem EncodeLength.ldyImm (b : Byte) : EncodeLength.Statement (.ldyImm b) := rfl
theorem EncodeLength.ldyZp0 (b : Byte) : EncodeLength.Statement (.ldyZp0 b) := rfl
theorem EncodeLength.ldyZpx (b : Byte) : EncodeLength.Statement (.ldyZpx b) := rfl
theorem EncodeLength.ldyAbs (w : Addr) : EncodeLength.Statement (.ldyAbs w) := rfl
theorem EncodeLength.ldyAbx (w : Addr) : EncodeLength.Statement (.ldyAbx w) := rfl
theorem EncodeLength.staZp0 (b : Byte) : EncodeLength.Statement (.staZp0 b) := rfl
theorem EncodeLength.staZpx (b : Byte) : EncodeLength.Statement (.staZpx b) := rfl
theorem EncodeLength.staAbs (w : Addr) : EncodeLength.Statement (.staAbs w) := rfl
theorem EncodeLength.staAbx (w : Addr) : EncodeLength.Statement (.staAbx w) := rfl
theorem EncodeLength.staAby (w : Addr) : EncodeLength.Statement (.staAby w) := rfl
theorem EncodeLength.staIzx (b : Byte) : EncodeLength.Statement (.staIzx b) := rfl
theorem EncodeLength.staIzy (b : Byte) : EncodeLength.Statement (.staIzy b) := rfl
theorem EncodeLength.stxZp0 (b : Byte) : EncodeLength.Statement (.stxZp0 b) := rfl
theorem EncodeLength.stxZpy (b : Byte) : EncodeLength.Statement (.stxZpy b) := rfl
theorem EncodeLength.stxAbs (w : Addr) : EncodeLength.Statement (.stxAbs w) := rfl
theorem EncodeLength.styZp0 (b : Byte) : EncodeLength.Statement (.styZp0 b) := rfl
theorem EncodeLength.styZpx (b : Byte) : EncodeLength.Statement (.styZpx b) := rfl
theorem EncodeLength.styAbs (w : Addr) : EncodeLength.Statement (.styAbs w) := rfl
theorem EncodeLength.adcImm (b : Byte) : EncodeLength.Statement (.adcImm b) := rfl
theorem EncodeLength.adcZp0 (b : Byte) : EncodeLength.Statement (.adcZp0 b) := rfl
theorem EncodeLength.adcZpx (b : Byte) : EncodeLength.Statement (.adcZpx b) := rfl
theorem EncodeLength.adcAbs (w : Addr) : EncodeLength.Statement (.adcAbs w) := rfl
theorem EncodeLength.adcAbx (w : Addr) : EncodeLength.Statement (.adcAbx w) := rfl
theorem EncodeLength.adcAby (w : Addr) : EncodeLength.Statement (.adcAby w) := rfl
theorem EncodeLength.adcIzx (b : Byte) : EncodeLength.Statement (.adcIzx b) := rfl
theorem EncodeLength.adcIzy (b : Byte) : EncodeLength.Statement (.adcIzy b) := rfl
theorem EncodeLength.sbcImm (b : Byte) : EncodeLength.Statement (.sbcImm b) := rfl
theorem EncodeLength.sbcZp0 (b : Byte) : EncodeLength.Statement (.sbcZp0 b) := rfl
theorem EncodeLength.sbcZpx (b : Byte) : EncodeLength.Statement (.sbcZpx b) := rfl
theorem EncodeLength.sbcAbs (w : Addr) : EncodeLength.Statement (.sbcAbs w) := rfl
theorem EncodeLength.sbcAbx (w : Addr) : EncodeLength.Statement (.sbcAbx w) := rfl
theorem EncodeLength.sbcAby (w : Addr) : EncodeLength.Statement (.sbcAby w) := rfl
theorem EncodeLength.sbcIzx (b : Byte) : EncodeLength.Statement (.sbcIzx b) := rfl
theorem EncodeLength.sbcIzy (b : Byte) : EncodeLength.Statement (.sbcIzy b) := rfl
theorem EncodeLength.cmpImm (b : Byte) : EncodeLength.Statement (.cmpImm b) := rfl
theorem EncodeLength.cmpZp0 (b : Byte) : EncodeLength.Statement (.cmpZp0 b) := rfl
theorem EncodeLength.cmpZpx (b : Byte) : EncodeLength.Statement (.cmpZpx b) := rfl
theorem EncodeLength.cmpAbs (w : Addr) : EncodeLength.Statement (.cmpAbs w) := rfl
theorem EncodeLength.cmpAbx (w : Addr) : EncodeLength.Statement (.cmpAbx w) := rfl
theorem EncodeLength.cmpAby (w : Addr) : EncodeLength.Statement (.cmpAby w) := rfl
theorem EncodeLength.cmpIzx (b : Byte) : EncodeLength.Statement (.cmpIzx b) := rfl
theorem EncodeLength.cmpIzy (b : Byte) : EncodeLength.Statement (.cmpIzy b) := rfl
theorem EncodeLength.cpxImm (b : Byte) : EncodeLength.Statement (.cpxImm b) := rfl
theorem EncodeLength.cpxZp0 (b : Byte) : EncodeLength.Statement (.cpxZp0 b) := rfl
theorem EncodeLength.cpxAbs (w : Addr) : EncodeLength.Statement (.cpxAbs w) := rfl
theorem EncodeLength.cpyImm (b : Byte) : EncodeLength.Statement (.cpyImm b) := rfl
theorem EncodeLength.cpyZp0 (b : Byte) : EncodeLength.Statement (.cpyZp0 b) := rfl
theorem EncodeLength.cpyAbs (w : Addr) : EncodeLength.Statement (.cpyAbs w) := rfl
theorem EncodeLength.andImm (b : Byte) : EncodeLength.Statement (.andImm b) := rfl
theorem EncodeLength.andZp0 (b : Byte) : EncodeLength.Statement (.andZp0 b) := rfl
theorem EncodeLength.andZpx (b : Byte) : EncodeLength.Statement (.andZpx b) := rfl
theorem EncodeLength.andAbs (w : Addr) : EncodeLength.Statement (.andAbs w) := rfl
theorem EncodeLength.andAbx (w : Addr) : EncodeLength.Statement (.andAbx w) := rfl
theorem EncodeLength.andAby (w : Addr) : EncodeLength.Statement (.andAby w) := rfl
theorem EncodeLength.andIzx (b : Byte) : EncodeLength.Statement (.andIzx b) := rfl
theorem EncodeLength.andIzy (b : Byte) : EncodeLength.Statement (.andIzy b) := rfl
theorem EncodeLength.oraImm (b : Byte) : EncodeLength.Statement (.oraImm b) := rfl
theorem EncodeLength.oraZp0 (b : Byte) : EncodeLength.Statement (.oraZp0 b) := rfl
theorem EncodeLength.oraZpx (b : Byte) : EncodeLength.Statement (.oraZpx b) := rfl
theorem EncodeLength.oraAbs (w : Addr) : EncodeLength.Statement (.oraAbs w) := rfl
theorem EncodeLength.oraAbx (w : Addr) : EncodeLength.Statement (.oraAbx w) := rfl
theorem EncodeLength.oraAby (w : Addr) : EncodeLength.Statement (.oraAby w) := rfl
theorem EncodeLength.oraIzx (b : Byte) : EncodeLength.Statement (.oraIzx b) := rfl
theorem EncodeLength.oraIzy (b : Byte) : EncodeLength.Statement (.oraIzy b) := rfl
theorem EncodeLength.eorImm (b : Byte) : EncodeLength.Statement (.eorImm b) := rfl
theorem EncodeLength.eorZp0 (b : Byte) : EncodeLength.Statement (.eorZp0 b) := rfl
theorem EncodeLength.eorZpx (b : Byte) : EncodeLength.Statement (.eorZpx b) := rfl
theorem EncodeLength.eorAbs (w : Addr) : EncodeLength.Statement (.eorAbs w) := rfl
theorem EncodeLength.eorAbx (w : Addr) : EncodeLength.Statement (.eorAbx w) := rfl
theorem EncodeLength.eorAby (w : Addr) : EncodeLength.Statement (.eorAby w) := rfl
theorem EncodeLength.eorIzx (b : Byte) : EncodeLength.Statement (.eorIzx b) := rfl
theorem EncodeLength.eorIzy (b : Byte) : EncodeLength.Statement (.eorIzy b) := rfl
theorem EncodeLength.bitZp0 (b : Byte) : EncodeLength.Statement (.bitZp0 b) := rfl
theorem EncodeLength.bitAbs (w : Addr) : EncodeLength.Statement (.bitAbs w) := rfl
theorem EncodeLength.aslAcc : EncodeLength.Statement .aslAcc := rfl
theorem EncodeLength.aslZp0 (b : Byte) : EncodeLength.Statement (.aslZp0 b) := rfl
theorem EncodeLength.aslZpx (b : Byte) : EncodeLength.Statement (.aslZpx b) := rfl
theorem EncodeLength.aslAbs (w : Addr) : EncodeLength.Statement (.aslAbs w) := rfl
theorem EncodeLength.aslAbx (w : Addr) : EncodeLength.Statement (.aslAbx w) := rfl
theorem EncodeLength.lsrAcc : EncodeLength.Statement .lsrAcc := rfl
theorem EncodeLength.lsrZp0 (b : Byte) : EncodeLength.Statement (.lsrZp0 b) := rfl
theorem EncodeLength.lsrZpx (b : Byte) : EncodeLength.Statement (.lsrZpx b) := rfl
theorem EncodeLength.lsrAbs (w : Addr) : EncodeLength.Statement (.lsrAbs w) := rfl
theorem EncodeLength.lsrAbx (w : Addr) : EncodeLength.Statement (.lsrAbx w) := rfl
theorem EncodeLength.rolAcc : EncodeLength.Statement .rolAcc := rfl
theorem EncodeLength.rolZp0 (b : Byte) : EncodeLength.Statement (.rolZp0 b) := rfl
theorem EncodeLength.rolZpx (b : Byte) : EncodeLength.Statement (.rolZpx b) := rfl
theorem EncodeLength.rolAbs (w : Addr) : EncodeLength.Statement (.rolAbs w) := rfl
theorem EncodeLength.rolAbx (w : Addr) : EncodeLength.Statement (.rolAbx w) := rfl
theorem EncodeLength.rorAcc : EncodeLength.Statement .rorAcc := rfl
theorem EncodeLength.rorZp0 (b : Byte) : EncodeLength.Statement (.rorZp0 b) := rfl
theorem EncodeLength.rorZpx (b : Byte) : EncodeLength.Statement (.rorZpx b) := rfl
theorem EncodeLength.rorAbs (w : Addr) : EncodeLength.Statement (.rorAbs w) := rfl
theorem EncodeLength.rorAbx (w : Addr) : EncodeLength.Statement (.rorAbx w) := rfl
theorem EncodeLength.incZp0 (b : Byte) : EncodeLength.Statement (.incZp0 b) := rfl
theorem EncodeLength.incZpx (b : Byte) : EncodeLength.Statement (.incZpx b) := rfl
theorem EncodeLength.incAbs (w : Addr) : EncodeLength.Statement (.incAbs w) := rfl
theorem EncodeLength.incAbx (w : Addr) : EncodeLength.Statement (.incAbx w) := rfl
theorem EncodeLength.decZp0 (b : Byte) : EncodeLength.Statement (.decZp0 b) := rfl
theorem EncodeLength.decZpx (b : Byte) : EncodeLength.Statement (.decZpx b) := rfl
theorem EncodeLength.decAbs (w : Addr) : EncodeLength.Statement (.decAbs w) := rfl
theorem EncodeLength.decAbx (w : Addr) : EncodeLength.Statement (.decAbx w) := rfl
theorem EncodeLength.inx : EncodeLength.Statement .inx := rfl
theorem EncodeLength.iny : EncodeLength.Statement .iny := rfl
theorem EncodeLength.dex : EncodeLength.Statement .dex := rfl
theorem EncodeLength.dey : EncodeLength.Statement .dey := rfl
theorem EncodeLength.tax : EncodeLength.Statement .tax := rfl
theorem EncodeLength.tay : EncodeLength.Statement .tay := rfl
theorem EncodeLength.txa : EncodeLength.Statement .txa := rfl
theorem EncodeLength.tya : EncodeLength.Statement .tya := rfl
theorem EncodeLength.tsx : EncodeLength.Statement .tsx := rfl
theorem EncodeLength.txs : EncodeLength.Statement .txs := rfl
theorem EncodeLength.clc : EncodeLength.Statement .clc := rfl
theorem EncodeLength.sec : EncodeLength.Statement .sec := rfl
theorem EncodeLength.cli : EncodeLength.Statement .cli := rfl
theorem EncodeLength.sei : EncodeLength.Statement .sei := rfl
theorem EncodeLength.cld : EncodeLength.Statement .cld := rfl
theorem EncodeLength.sed : EncodeLength.Statement .sed := rfl
theorem EncodeLength.clv : EncodeLength.Statement .clv := rfl
theorem EncodeLength.pha : EncodeLength.Statement .pha := rfl
theorem EncodeLength.php : EncodeLength.Statement .php := rfl
theorem EncodeLength.pla : EncodeLength.Statement .pla := rfl
theorem EncodeLength.plp : EncodeLength.Statement .plp := rfl
theorem EncodeLength.bcc (b : Byte) : EncodeLength.Statement (.bcc b) := rfl
theorem EncodeLength.bcs (b : Byte) : EncodeLength.Statement (.bcs b) := rfl
theorem EncodeLength.beq (b : Byte) : EncodeLength.Statement (.beq b) := rfl
theorem EncodeLength.bne (b : Byte) : EncodeLength.Statement (.bne b) := rfl
theorem EncodeLength.bmi (b : Byte) : EncodeLength.Statement (.bmi b) := rfl
theorem EncodeLength.bpl (b : Byte) : EncodeLength.Statement (.bpl b) := rfl
theorem EncodeLength.bvc (b : Byte) : EncodeLength.Statement (.bvc b) := rfl
theorem EncodeLength.bvs (b : Byte) : EncodeLength.Statement (.bvs b) := rfl
theorem EncodeLength.jmpAbs (w : Addr) : EncodeLength.Statement (.jmpAbs w) := rfl
theorem EncodeLength.jmpInd (w : Addr) : EncodeLength.Statement (.jmpInd w) := rfl
theorem EncodeLength.jsr (w : Addr) : EncodeLength.Statement (.jsr w) := rfl
theorem EncodeLength.rts : EncodeLength.Statement .rts := rfl
theorem EncodeLength.brk : EncodeLength.Statement .brk := rfl
theorem EncodeLength.rti : EncodeLength.Statement .rti := rfl
theorem EncodeLength.nop : EncodeLength.Statement .nop := rfl
theorem EncodeLength.illegal (op : Byte) : EncodeLength.Statement (.illegal op) := rfl

/-! ### OperandMode -/

theorem OperandMode.ldaImm (b : Byte) : OperandMode.Statement (.ldaImm b) := rfl
theorem OperandMode.ldaZp0 (b : Byte) : OperandMode.Statement (.ldaZp0 b) := rfl
theorem OperandMode.ldaZpx (b : Byte) : OperandMode.Statement (.ldaZpx b) := rfl
theorem OperandMode.ldaAbs (w : Addr) : OperandMode.Statement (.ldaAbs w) := rfl
theorem OperandMode.ldaAbx (w : Addr) : OperandMode.Statement (.ldaAbx w) := rfl
theorem OperandMode.ldaAby (w : Addr) : OperandMode.Statement (.ldaAby w) := rfl
theorem OperandMode.ldaIzx (b : Byte) : OperandMode.Statement (.ldaIzx b) := rfl
theorem OperandMode.ldaIzy (b : Byte) : OperandMode.Statement (.ldaIzy b) := rfl
theorem OperandMode.ldxImm (b : Byte) : OperandMode.Statement (.ldxImm b) := rfl
theorem OperandMode.ldxZp0 (b : Byte) : OperandMode.Statement (.ldxZp0 b) := rfl
theorem OperandMode.ldxZpy (b : Byte) : OperandMode.Statement (.ldxZpy b) := rfl
theorem OperandMode.ldxAbs (w : Addr) : OperandMode.Statement (.ldxAbs w) := rfl
theorem OperandMode.ldxAby (w : Addr) : OperandMode.Statement (.ldxAby w) := rfl
theorem OperandMode.ldyImm (b : Byte) : OperandMode.Statement (.ldyImm b) := rfl
theorem OperandMode.ldyZp0 (b : Byte) : OperandMode.Statement (.ldyZp0 b) := rfl
theorem OperandMode.ldyZpx (b : Byte) : OperandMode.Statement (.ldyZpx b) := rfl
theorem OperandMode.ldyAbs (w : Addr) : OperandMode.Statement (.ldyAbs w) := rfl
theorem OperandMode.ldyAbx (w : Addr) : OperandMode.Statement (.ldyAbx w) := rfl
theorem OperandMode.staZp0 (b : Byte) : OperandMode.Statement (.staZp0 b) := rfl
theorem OperandMode.staZpx (b : Byte) : OperandMode.Statement (.staZpx b) := rfl
theorem OperandMode.staAbs (w : Addr) : OperandMode.Statement (.staAbs w) := rfl
theorem OperandMode.staAbx (w : Addr) : OperandMode.Statement (.staAbx w) := rfl
theorem OperandMode.staAby (w : Addr) : OperandMode.Statement (.staAby w) := rfl
theorem OperandMode.staIzx (b : Byte) : OperandMode.Statement (.staIzx b) := rfl
theorem OperandMode.staIzy (b : Byte) : OperandMode.Statement (.staIzy b) := rfl
theorem OperandMode.stxZp0 (b : Byte) : OperandMode.Statement (.stxZp0 b) := rfl
theorem OperandMode.stxZpy (b : Byte) : OperandMode.Statement (.stxZpy b) := rfl
theorem OperandMode.stxAbs (w : Addr) : OperandMode.Statement (.stxAbs w) := rfl
theorem OperandMode.styZp0 (b : Byte) : OperandMode.Statement (.styZp0 b) := rfl
theorem OperandMode.styZpx (b : Byte) : OperandMode.Statement (.styZpx b) := rfl
theorem OperandMode.styAbs (w : Addr) : OperandMode.Statement (.styAbs w) := rfl
theorem OperandMode.adcImm (b : Byte) : OperandMode.Statement (.adcImm b) := rfl
theorem OperandMode.adcZp0 (b : Byte) : OperandMode.Statement (.adcZp0 b) := rfl
theorem OperandMode.adcZpx (b : Byte) : OperandMode.Statement (.adcZpx b) := rfl
theorem OperandMode.adcAbs (w : Addr) : OperandMode.Statement (.adcAbs w) := rfl
theorem OperandMode.adcAbx (w : Addr) : OperandMode.Statement (.adcAbx w) := rfl
theorem OperandMode.adcAby (w : Addr) : OperandMode.Statement (.adcAby w) := rfl
theorem OperandMode.adcIzx (b : Byte) : OperandMode.Statement (.adcIzx b) := rfl
theorem OperandMode.adcIzy (b : Byte) : OperandMode.Statement (.adcIzy b) := rfl
theorem OperandMode.sbcImm (b : Byte) : OperandMode.Statement (.sbcImm b) := rfl
theorem OperandMode.sbcZp0 (b : Byte) : OperandMode.Statement (.sbcZp0 b) := rfl
theorem OperandMode.sbcZpx (b : Byte) : OperandMode.Statement (.sbcZpx b) := rfl
theorem OperandMode.sbcAbs (w : Addr) : OperandMode.Statement (.sbcAbs w) := rfl
theorem OperandMode.sbcAbx (w : Addr) : OperandMode.Statement (.sbcAbx w) := rfl
theorem OperandMode.sbcAby (w : Addr) : OperandMode.Statement (.sbcAby w) := rfl
theorem OperandMode.sbcIzx (b : Byte) : OperandMode.Statement (.sbcIzx b) := rfl
theorem OperandMode.sbcIzy (b : Byte) : OperandMode.Statement (.sbcIzy b) := rfl
theorem OperandMode.cmpImm (b : Byte) : OperandMode.Statement (.cmpImm b) := rfl
theorem OperandMode.cmpZp0 (b : Byte) : OperandMode.Statement (.cmpZp0 b) := rfl
theorem OperandMode.cmpZpx (b : Byte) : OperandMode.Statement (.cmpZpx b) := rfl
theorem OperandMode.cmpAbs (w : Addr) : OperandMode.Statement (.cmpAbs w) := rfl
theorem OperandMode.cmpAbx (w : Addr) : OperandMode.Statement (.cmpAbx w) := rfl
theorem OperandMode.cmpAby (w : Addr) : OperandMode.Statement (.cmpAby w) := rfl
theorem OperandMode.cmpIzx (b : Byte) : OperandMode.Statement (.cmpIzx b) := rfl
theorem OperandMode.cmpIzy (b : Byte) : OperandMode.Statement (.cmpIzy b) := rfl
theorem OperandMode.cpxImm (b : Byte) : OperandMode.Statement (.cpxImm b) := rfl
theorem OperandMode.cpxZp0 (b : Byte) : OperandMode.Statement (.cpxZp0 b) := rfl
theorem OperandMode.cpxAbs (w : Addr) : OperandMode.Statement (.cpxAbs w) := rfl
theorem OperandMode.cpyImm (b : Byte) : OperandMode.Statement (.cpyImm b) := rfl
theorem OperandMode.cpyZp0 (b : Byte) : OperandMode.Statement (.cpyZp0 b) := rfl
theorem OperandMode.cpyAbs (w : Addr) : OperandMode.Statement (.cpyAbs w) := rfl
theorem OperandMode.andImm (b : Byte) : OperandMode.Statement (.andImm b) := rfl
theorem OperandMode.andZp0 (b : Byte) : OperandMode.Statement (.andZp0 b) := rfl
theorem OperandMode.andZpx (b : Byte) : OperandMode.Statement (.andZpx b) := rfl
theorem OperandMode.andAbs (w : Addr) : OperandMode.Statement (.andAbs w) := rfl
theorem OperandMode.andAbx (w : Addr) : OperandMode.Statement (.andAbx w) := rfl
theorem OperandMode.andAby (w : Addr) : OperandMode.Statement (.andAby w) := rfl
theorem OperandMode.andIzx (b : Byte) : OperandMode.Statement (.andIzx b) := rfl
theorem OperandMode.andIzy (b : Byte) : OperandMode.Statement (.andIzy b) := rfl
theorem OperandMode.oraImm (b : Byte) : OperandMode.Statement (.oraImm b) := rfl
theorem OperandMode.oraZp0 (b : Byte) : OperandMode.Statement (.oraZp0 b) := rfl
theorem OperandMode.oraZpx (b : Byte) : OperandMode.Statement (.oraZpx b) := rfl
theorem OperandMode.oraAbs (w : Addr) : OperandMode.Statement (.oraAbs w) := rfl
theorem OperandMode.oraAbx (w : Addr) : OperandMode.Statement (.oraAbx w) := rfl
theorem OperandMode.oraAby (w : Addr) : OperandMode.Statement (.oraAby w) := rfl
theorem OperandMode.oraIzx (b : Byte) : OperandMode.Statement (.oraIzx b) := rfl
theorem OperandMode.oraIzy (b : Byte) : OperandMode.Statement (.oraIzy b) := rfl
theorem OperandMode.eorImm (b : Byte) : OperandMode.Statement (.eorImm b) := rfl
theorem OperandMode.eorZp0 (b : Byte) : OperandMode.Statement (.eorZp0 b) := rfl
theorem OperandMode.eorZpx (b : Byte) : OperandMode.Statement (.eorZpx b) := rfl
theorem OperandMode.eorAbs (w : Addr) : OperandMode.Statement (.eorAbs w) := rfl
theorem OperandMode.eorAbx (w : Addr) : OperandMode.Statement (.eorAbx w) := rfl
theorem OperandMode.eorAby (w : Addr) : OperandMode.Statement (.eorAby w) := rfl
theorem OperandMode.eorIzx (b : Byte) : OperandMode.Statement (.eorIzx b) := rfl
theorem OperandMode.eorIzy (b : Byte) : OperandMode.Statement (.eorIzy b) := rfl
theorem OperandMode.bitZp0 (b : Byte) : OperandMode.Statement (.bitZp0 b) := rfl
theorem OperandMode.bitAbs (w : Addr) : OperandMode.Statement (.bitAbs w) := rfl
theorem OperandMode.aslAcc : OperandMode.Statement .aslAcc := rfl
theorem OperandMode.aslZp0 (b : Byte) : OperandMode.Statement (.aslZp0 b) := rfl
theorem OperandMode.aslZpx (b : Byte) : OperandMode.Statement (.aslZpx b) := rfl
theorem OperandMode.aslAbs (w : Addr) : OperandMode.Statement (.aslAbs w) := rfl
theorem OperandMode.aslAbx (w : Addr) : OperandMode.Statement (.aslAbx w) := rfl
theorem OperandMode.lsrAcc : OperandMode.Statement .lsrAcc := rfl
theorem OperandMode.lsrZp0 (b : Byte) : OperandMode.Statement (.lsrZp0 b) := rfl
theorem OperandMode.lsrZpx (b : Byte) : OperandMode.Statement (.lsrZpx b) := rfl
theorem OperandMode.lsrAbs (w : Addr) : OperandMode.Statement (.lsrAbs w) := rfl
theorem OperandMode.lsrAbx (w : Addr) : OperandMode.Statement (.lsrAbx w) := rfl
theorem OperandMode.rolAcc : OperandMode.Statement .rolAcc := rfl
theorem OperandMode.rolZp0 (b : Byte) : OperandMode.Statement (.rolZp0 b) := rfl
theorem OperandMode.rolZpx (b : Byte) : OperandMode.Statement (.rolZpx b) := rfl
theorem OperandMode.rolAbs (w : Addr) : OperandMode.Statement (.rolAbs w) := rfl
theorem OperandMode.rolAbx (w : Addr) : OperandMode.Statement (.rolAbx w) := rfl
theorem OperandMode.rorAcc : OperandMode.Statement .rorAcc := rfl
theorem OperandMode.rorZp0 (b : Byte) : OperandMode.Statement (.rorZp0 b) := rfl
theorem OperandMode.rorZpx (b : Byte) : OperandMode.Statement (.rorZpx b) := rfl
theorem OperandMode.rorAbs (w : Addr) : OperandMode.Statement (.rorAbs w) := rfl
theorem OperandMode.rorAbx (w : Addr) : OperandMode.Statement (.rorAbx w) := rfl
theorem OperandMode.incZp0 (b : Byte) : OperandMode.Statement (.incZp0 b) := rfl
theorem OperandMode.incZpx (b : Byte) : OperandMode.Statement (.incZpx b) := rfl
theorem OperandMode.incAbs (w : Addr) : OperandMode.Statement (.incAbs w) := rfl
theorem OperandMode.incAbx (w : Addr) : OperandMode.Statement (.incAbx w) := rfl
theorem OperandMode.decZp0 (b : Byte) : OperandMode.Statement (.decZp0 b) := rfl
theorem OperandMode.decZpx (b : Byte) : OperandMode.Statement (.decZpx b) := rfl
theorem OperandMode.decAbs (w : Addr) : OperandMode.Statement (.decAbs w) := rfl
theorem OperandMode.decAbx (w : Addr) : OperandMode.Statement (.decAbx w) := rfl
theorem OperandMode.inx : OperandMode.Statement .inx := rfl
theorem OperandMode.iny : OperandMode.Statement .iny := rfl
theorem OperandMode.dex : OperandMode.Statement .dex := rfl
theorem OperandMode.dey : OperandMode.Statement .dey := rfl
theorem OperandMode.tax : OperandMode.Statement .tax := rfl
theorem OperandMode.tay : OperandMode.Statement .tay := rfl
theorem OperandMode.txa : OperandMode.Statement .txa := rfl
theorem OperandMode.tya : OperandMode.Statement .tya := rfl
theorem OperandMode.tsx : OperandMode.Statement .tsx := rfl
theorem OperandMode.txs : OperandMode.Statement .txs := rfl
theorem OperandMode.clc : OperandMode.Statement .clc := rfl
theorem OperandMode.sec : OperandMode.Statement .sec := rfl
theorem OperandMode.cli : OperandMode.Statement .cli := rfl
theorem OperandMode.sei : OperandMode.Statement .sei := rfl
theorem OperandMode.cld : OperandMode.Statement .cld := rfl
theorem OperandMode.sed : OperandMode.Statement .sed := rfl
theorem OperandMode.clv : OperandMode.Statement .clv := rfl
theorem OperandMode.pha : OperandMode.Statement .pha := rfl
theorem OperandMode.php : OperandMode.Statement .php := rfl
theorem OperandMode.pla : OperandMode.Statement .pla := rfl
theorem OperandMode.plp : OperandMode.Statement .plp := rfl
theorem OperandMode.bcc (b : Byte) : OperandMode.Statement (.bcc b) := rfl
theorem OperandMode.bcs (b : Byte) : OperandMode.Statement (.bcs b) := rfl
theorem OperandMode.beq (b : Byte) : OperandMode.Statement (.beq b) := rfl
theorem OperandMode.bne (b : Byte) : OperandMode.Statement (.bne b) := rfl
theorem OperandMode.bmi (b : Byte) : OperandMode.Statement (.bmi b) := rfl
theorem OperandMode.bpl (b : Byte) : OperandMode.Statement (.bpl b) := rfl
theorem OperandMode.bvc (b : Byte) : OperandMode.Statement (.bvc b) := rfl
theorem OperandMode.bvs (b : Byte) : OperandMode.Statement (.bvs b) := rfl
theorem OperandMode.jmpAbs (w : Addr) : OperandMode.Statement (.jmpAbs w) := rfl
theorem OperandMode.jmpInd (w : Addr) : OperandMode.Statement (.jmpInd w) := rfl
theorem OperandMode.jsr (w : Addr) : OperandMode.Statement (.jsr w) := rfl
theorem OperandMode.rts : OperandMode.Statement .rts := rfl
theorem OperandMode.brk : OperandMode.Statement .brk := rfl
theorem OperandMode.rti : OperandMode.Statement .rti := rfl
theorem OperandMode.nop : OperandMode.Statement .nop := rfl
theorem OperandMode.illegal (op : Byte) : OperandMode.Statement (.illegal op) := rfl

end Sys2Proof.Laws
end

