-- ==== Sys2Proof/Laws/Step.lean ====
section
/-! SUPPORT. What a fetch reads, and what a `step` can be. -/

namespace Sys2Proof.Machine

/-- Beginning a call twice is beginning it once. -/
@[simp] theorem beginCall_beginCall (s : State) : s.beginCall.beginCall = s.beginCall := by
  cases h : s.bus.hasDevice <;> simp [State.beginCall, State.history, h]

/-- Beginning a call changes nothing of what a fetch reads. -/
@[simp] theorem beginCall_fetchWindow (s : State) : s.beginCall.fetchWindow = s.fetchWindow := by
  have h0 := s.beginCall_byteAt s.pc
  have h1 := s.beginCall_noteReads_byteAt [s.pc] (s.pc + 1)
  have h2 := s.beginCall_noteReads_byteAt [s.pc, s.pc + 1] (s.pc + 2)
  simp only [State.fetchWindow, State.beginCall_pc]
  exact congrArg₂ _ h0 (congrArg₂ _ h1 (congrArg₂ _ h2 rfl))

/-- When the bytes at PC decode to `i`, the fetch delivers `i` and has recorded the reads of its own
bytes, in order (R58, R81). -/
theorem fetch_eq (s : State) (i : Instr) (rest : List Byte)
    (h : decode s.fetchWindow = .ok i rest) :
    fetch s = (i, s.noteReads (instructionAddrs i s.pc)) := by
  have agree := shapeOf_agrees (s.byteAt s.pc)
  simp only [decode, State.fetchWindow] at h
  unfold fetch
  simp only [memRead_fst, memRead_snd]
  cases hs : shapeOf (s.byteAt s.pc) with
  | one j =>
    simp only [hs, Shape.fill, Decoded.ok.injEq] at h
    simp only [hs, RowAgrees] at agree
    obtain ⟨rfl, -⟩ := h
    simp [instructionAddrs, agree.2.2.2]
  | two f =>
    simp only [hs, Shape.fill, Decoded.ok.injEq] at h
    simp only [hs, RowAgrees] at agree
    obtain ⟨rfl, -⟩ := h
    simp [instructionAddrs, (agree _).2.2.2.1, List.range_succ, State.noteReads_cons]
  | three f =>
    simp only [hs, Shape.fill, Decoded.ok.injEq] at h
    simp only [hs, RowAgrees] at agree
    obtain ⟨rfl, -⟩ := h
    simp [instructionAddrs, (agree _).2.2.2.1, List.range_succ, State.noteReads_cons]

/-- The bytes at PC always decode (R61): a fetch delivers some instruction. -/
theorem fetchWindow_decodes (s : State) : ∃ i rest, decode s.fetchWindow = .ok i rest := by
  simp only [decode, State.fetchWindow]
  cases shapeOf (s.byteAt s.pc) with
  | one j => exact ⟨_, _, rfl⟩
  | two f => exact ⟨_, _, rfl⟩
  | three f => exact ⟨_, _, rfl⟩

/-- What a `step` that answers a next state did: it counted down, or it ran one instruction. -/
theorem step_cases {s t : State} (h : step s = .next t) :
    (s.powered = true ∧ 0 < s.pending ∧ t = countDown s) ∨
    (s.powered = true ∧ s.pending = 0 ∧ ∃ u, exec (fetch s.beginCall).1 (fetch s.beginCall).2 =
      .next u ∧ t = finishFetchCall s (fetch s.beginCall).1 u) := by
  unfold step at h
  split at h
  · rename_i hp
    split at h
    · rename_i h0
      refine .inr ⟨hp, h0, ?_⟩
      simp only [fetchDecodeExecute] at h
      generalize exec (fetch s.beginCall).1 (fetch s.beginCall).2 = o at h
      cases o with
      | next u => exact ⟨u, rfl, by simpa [mapNext] using h.symm⟩
      | fault r => cases h
      | refused r => cases h
    · exact .inl ⟨hp, by omega, by simpa using h.symm⟩
  · cases h

/-- A run of one step more is that run and then a step. -/
theorem run_succ {M : Host.Core} (n : Nat) (a b : M.State) (h : M.run n a = .next b) :
    M.run (n + 1) a = M.step b := by
  induction n generalizing a with
  | zero =>
    simp only [Host.Core.run] at h ⊢
    cases h
    cases M.step b <;> rfl
  | succ n ih =>
    rw [Host.Core.run] at h ⊢
    cases hs : M.step a with
    | next c => rw [hs] at h; exact ih c h
    | fault r => rw [hs] at h; cases h
    | refused r => rw [hs] at h; cases h

/-- A placed instruction leaves everything but memory, `pending` and `powered` as it was. -/
@[simp] theorem State.withFetchWord_pc (s : State) (n w : Nat) :
    (s.withFetchWord n w).pc = s.pc := rfl

/-- The core is at a boundary after an instruction is placed. -/
@[simp] theorem State.withFetchWord_pending (s : State) (n w : Nat) :
    (s.withFetchWord n w).pending = 0 := rfl

end Sys2Proof.Machine
end

