-- ==== Sys2Proof/Tests/Slice0.lean ====
section
/-! SUPPORT. The model's own tests: the well-formedness check, decoding of words written out from
`30_encoding.md` R58, R60, R62 and R64, one-step vectors of `95_test_vectors.md` (each test names its
row), the host calls of its section 2.11, and a witness for the hypotheses of each obligation. -/

namespace Sys2Proof.Tests

open Sys2Proof Sys2Proof.Machine

/-! ### Helpers -/

/-- A powered core at an instruction boundary, with the default registers of `95_test_vectors.md`
part 2: the instruction's bytes at PC, the given bytes elsewhere, every other byte 0. -/
def at_ (pc : Addr) (code : List Byte) (cells : List (Addr × Byte) := []) : State :=
  { State.reset with
    pc       := pc
    pending  := 0
    mem      := storeBytes (cells.foldl (fun m c => m.write c.1.toNat c.2) []) pc code
    accesses := [] }

/-- The outcome is a next state with the property. -/
def next (o : Outcome) (q : State → Bool) : Bool :=
  match o with
  | .next t    => q t
  | .fault _   => false
  | .refused _ => false

/-- The outcome is this refusal. -/
def refusedWith (o : Outcome) (r : Refusal) : Bool :=
  match o with
  | .next _    => false
  | .fault _   => false
  | .refused q => q == r

/-- The bus writes of the last call, in order. -/
def writes (t : State) : List (Addr × Byte) :=
  t.accesses.filterMap fun b => match b with
    | .write a v => some (a, v)
    | .read _ _  => none

/-- The addresses the last call read, in order. -/
def reads (t : State) : List Addr :=
  t.accesses.filterMap fun b => match b with
    | .write _ _ => none
    | .read a _  => some a

/-! ### Well-formedness: `illegal` must hold one of the bytes R64 lists -/

theorem test_wf_refuses_documented_byte : (Instr.illegal 0xA9).wf = false := by decide
theorem test_wf_refuses_brk_byte : (Instr.illegal 0x00).wf = false := by decide
theorem test_wf_accepts_undocumented_byte : (Instr.illegal 0x02).wf = true := by decide
theorem test_wf_accepts_any_operand : (Instr.ldaAbx 0xFFFF).wf = true := by decide

/-! ### Decoding: every constructor, from the bytes of R62, operands low byte first -/

theorem test_decode_LDA :
    decode [0xA9, 0x81] = .ok (.ldaImm 0x81) [] ∧
    decode [0xA5, 0x81] = .ok (.ldaZp0 0x81) [] ∧
    decode [0xB5, 0x81] = .ok (.ldaZpx 0x81) [] ∧
    decode [0xAD, 0x34, 0x12] = .ok (.ldaAbs 0x1234) [] ∧
    decode [0xBD, 0x34, 0x12] = .ok (.ldaAbx 0x1234) [] ∧
    decode [0xB9, 0x34, 0x12] = .ok (.ldaAby 0x1234) [] ∧
    decode [0xA1, 0x81] = .ok (.ldaIzx 0x81) [] ∧
    decode [0xB1, 0x81] = .ok (.ldaIzy 0x81) [] := by decide
theorem test_decode_LDX :
    decode [0xA2, 0x81] = .ok (.ldxImm 0x81) [] ∧
    decode [0xA6, 0x81] = .ok (.ldxZp0 0x81) [] ∧
    decode [0xB6, 0x81] = .ok (.ldxZpy 0x81) [] ∧
    decode [0xAE, 0x34, 0x12] = .ok (.ldxAbs 0x1234) [] ∧
    decode [0xBE, 0x34, 0x12] = .ok (.ldxAby 0x1234) [] := by decide
theorem test_decode_LDY :
    decode [0xA0, 0x81] = .ok (.ldyImm 0x81) [] ∧
    decode [0xA4, 0x81] = .ok (.ldyZp0 0x81) [] ∧
    decode [0xB4, 0x81] = .ok (.ldyZpx 0x81) [] ∧
    decode [0xAC, 0x34, 0x12] = .ok (.ldyAbs 0x1234) [] ∧
    decode [0xBC, 0x34, 0x12] = .ok (.ldyAbx 0x1234) [] := by decide
theorem test_decode_STA :
    decode [0x85, 0x81] = .ok (.staZp0 0x81) [] ∧
    decode [0x95, 0x81] = .ok (.staZpx 0x81) [] ∧
    decode [0x8D, 0x34, 0x12] = .ok (.staAbs 0x1234) [] ∧
    decode [0x9D, 0x34, 0x12] = .ok (.staAbx 0x1234) [] ∧
    decode [0x99, 0x34, 0x12] = .ok (.staAby 0x1234) [] ∧
    decode [0x81, 0x81] = .ok (.staIzx 0x81) [] ∧
    decode [0x91, 0x81] = .ok (.staIzy 0x81) [] := by decide
theorem test_decode_STX :
    decode [0x86, 0x81] = .ok (.stxZp0 0x81) [] ∧
    decode [0x96, 0x81] = .ok (.stxZpy 0x81) [] ∧
    decode [0x8E, 0x34, 0x12] = .ok (.stxAbs 0x1234) [] := by decide
theorem test_decode_STY :
    decode [0x84, 0x81] = .ok (.styZp0 0x81) [] ∧
    decode [0x94, 0x81] = .ok (.styZpx 0x81) [] ∧
    decode [0x8C, 0x34, 0x12] = .ok (.styAbs 0x1234) [] := by decide
theorem test_decode_ADC :
    decode [0x69, 0x81] = .ok (.adcImm 0x81) [] ∧
    decode [0x65, 0x81] = .ok (.adcZp0 0x81) [] ∧
    decode [0x75, 0x81] = .ok (.adcZpx 0x81) [] ∧
    decode [0x6D, 0x34, 0x12] = .ok (.adcAbs 0x1234) [] ∧
    decode [0x7D, 0x34, 0x12] = .ok (.adcAbx 0x1234) [] ∧
    decode [0x79, 0x34, 0x12] = .ok (.adcAby 0x1234) [] ∧
    decode [0x61, 0x81] = .ok (.adcIzx 0x81) [] ∧
    decode [0x71, 0x81] = .ok (.adcIzy 0x81) [] := by decide
theorem test_decode_SBC :
    decode [0xE9, 0x81] = .ok (.sbcImm 0x81) [] ∧
    decode [0xE5, 0x81] = .ok (.sbcZp0 0x81) [] ∧
    decode [0xF5, 0x81] = .ok (.sbcZpx 0x81) [] ∧
    decode [0xED, 0x34, 0x12] = .ok (.sbcAbs 0x1234) [] ∧
    decode [0xFD, 0x34, 0x12] = .ok (.sbcAbx 0x1234) [] ∧
    decode [0xF9, 0x34, 0x12] = .ok (.sbcAby 0x1234) [] ∧
    decode [0xE1, 0x81] = .ok (.sbcIzx 0x81) [] ∧
    decode [0xF1, 0x81] = .ok (.sbcIzy 0x81) [] := by decide
theorem test_decode_CMP :
    decode [0xC9, 0x81] = .ok (.cmpImm 0x81) [] ∧
    decode [0xC5, 0x81] = .ok (.cmpZp0 0x81) [] ∧
    decode [0xD5, 0x81] = .ok (.cmpZpx 0x81) [] ∧
    decode [0xCD, 0x34, 0x12] = .ok (.cmpAbs 0x1234) [] ∧
    decode [0xDD, 0x34, 0x12] = .ok (.cmpAbx 0x1234) [] ∧
    decode [0xD9, 0x34, 0x12] = .ok (.cmpAby 0x1234) [] ∧
    decode [0xC1, 0x81] = .ok (.cmpIzx 0x81) [] ∧
    decode [0xD1, 0x81] = .ok (.cmpIzy 0x81) [] := by decide
theorem test_decode_CPX :
    decode [0xE0, 0x81] = .ok (.cpxImm 0x81) [] ∧
    decode [0xE4, 0x81] = .ok (.cpxZp0 0x81) [] ∧
    decode [0xEC, 0x34, 0x12] = .ok (.cpxAbs 0x1234) [] := by decide
theorem test_decode_CPY :
    decode [0xC0, 0x81] = .ok (.cpyImm 0x81) [] ∧
    decode [0xC4, 0x81] = .ok (.cpyZp0 0x81) [] ∧
    decode [0xCC, 0x34, 0x12] = .ok (.cpyAbs 0x1234) [] := by decide
theorem test_decode_AND :
    decode [0x29, 0x81] = .ok (.andImm 0x81) [] ∧
    decode [0x25, 0x81] = .ok (.andZp0 0x81) [] ∧
    decode [0x35, 0x81] = .ok (.andZpx 0x81) [] ∧
    decode [0x2D, 0x34, 0x12] = .ok (.andAbs 0x1234) [] ∧
    decode [0x3D, 0x34, 0x12] = .ok (.andAbx 0x1234) [] ∧
    decode [0x39, 0x34, 0x12] = .ok (.andAby 0x1234) [] ∧
    decode [0x21, 0x81] = .ok (.andIzx 0x81) [] ∧
    decode [0x31, 0x81] = .ok (.andIzy 0x81) [] := by decide
theorem test_decode_ORA :
    decode [0x09, 0x81] = .ok (.oraImm 0x81) [] ∧
    decode [0x05, 0x81] = .ok (.oraZp0 0x81) [] ∧
    decode [0x15, 0x81] = .ok (.oraZpx 0x81) [] ∧
    decode [0x0D, 0x34, 0x12] = .ok (.oraAbs 0x1234) [] ∧
    decode [0x1D, 0x34, 0x12] = .ok (.oraAbx 0x1234) [] ∧
    decode [0x19, 0x34, 0x12] = .ok (.oraAby 0x1234) [] ∧
    decode [0x01, 0x81] = .ok (.oraIzx 0x81) [] ∧
    decode [0x11, 0x81] = .ok (.oraIzy 0x81) [] := by decide
theorem test_decode_EOR :
    decode [0x49, 0x81] = .ok (.eorImm 0x81) [] ∧
    decode [0x45, 0x81] = .ok (.eorZp0 0x81) [] ∧
    decode [0x55, 0x81] = .ok (.eorZpx 0x81) [] ∧
    decode [0x4D, 0x34, 0x12] = .ok (.eorAbs 0x1234) [] ∧
    decode [0x5D, 0x34, 0x12] = .ok (.eorAbx 0x1234) [] ∧
    decode [0x59, 0x34, 0x12] = .ok (.eorAby 0x1234) [] ∧
    decode [0x41, 0x81] = .ok (.eorIzx 0x81) [] ∧
    decode [0x51, 0x81] = .ok (.eorIzy 0x81) [] := by decide
theorem test_decode_BIT :
    decode [0x24, 0x81] = .ok (.bitZp0 0x81) [] ∧
    decode [0x2C, 0x34, 0x12] = .ok (.bitAbs 0x1234) [] := by decide
theorem test_decode_ASL :
    decode [0x0A, 0xEA] = .ok .aslAcc [0xEA] ∧
    decode [0x06, 0x81] = .ok (.aslZp0 0x81) [] ∧
    decode [0x16, 0x81] = .ok (.aslZpx 0x81) [] ∧
    decode [0x0E, 0x34, 0x12] = .ok (.aslAbs 0x1234) [] ∧
    decode [0x1E, 0x34, 0x12] = .ok (.aslAbx 0x1234) [] := by decide
theorem test_decode_LSR :
    decode [0x4A, 0xEA] = .ok .lsrAcc [0xEA] ∧
    decode [0x46, 0x81] = .ok (.lsrZp0 0x81) [] ∧
    decode [0x56, 0x81] = .ok (.lsrZpx 0x81) [] ∧
    decode [0x4E, 0x34, 0x12] = .ok (.lsrAbs 0x1234) [] ∧
    decode [0x5E, 0x34, 0x12] = .ok (.lsrAbx 0x1234) [] := by decide
theorem test_decode_ROL :
    decode [0x2A, 0xEA] = .ok .rolAcc [0xEA] ∧
    decode [0x26, 0x81] = .ok (.rolZp0 0x81) [] ∧
    decode [0x36, 0x81] = .ok (.rolZpx 0x81) [] ∧
    decode [0x2E, 0x34, 0x12] = .ok (.rolAbs 0x1234) [] ∧
    decode [0x3E, 0x34, 0x12] = .ok (.rolAbx 0x1234) [] := by decide
theorem test_decode_ROR :
    decode [0x6A, 0xEA] = .ok .rorAcc [0xEA] ∧
    decode [0x66, 0x81] = .ok (.rorZp0 0x81) [] ∧
    decode [0x76, 0x81] = .ok (.rorZpx 0x81) [] ∧
    decode [0x6E, 0x34, 0x12] = .ok (.rorAbs 0x1234) [] ∧
    decode [0x7E, 0x34, 0x12] = .ok (.rorAbx 0x1234) [] := by decide
theorem test_decode_INC :
    decode [0xE6, 0x81] = .ok (.incZp0 0x81) [] ∧
    decode [0xF6, 0x81] = .ok (.incZpx 0x81) [] ∧
    decode [0xEE, 0x34, 0x12] = .ok (.incAbs 0x1234) [] ∧
    decode [0xFE, 0x34, 0x12] = .ok (.incAbx 0x1234) [] := by decide
theorem test_decode_DEC :
    decode [0xC6, 0x81] = .ok (.decZp0 0x81) [] ∧
    decode [0xD6, 0x81] = .ok (.decZpx 0x81) [] ∧
    decode [0xCE, 0x34, 0x12] = .ok (.decAbs 0x1234) [] ∧
    decode [0xDE, 0x34, 0x12] = .ok (.decAbx 0x1234) [] := by decide
theorem test_decode_INX : decode [0xE8, 0xEA] = .ok .inx [0xEA] := by decide
theorem test_decode_INY : decode [0xC8, 0xEA] = .ok .iny [0xEA] := by decide
theorem test_decode_DEX : decode [0xCA, 0xEA] = .ok .dex [0xEA] := by decide
theorem test_decode_DEY : decode [0x88, 0xEA] = .ok .dey [0xEA] := by decide
theorem test_decode_TAX : decode [0xAA, 0xEA] = .ok .tax [0xEA] := by decide
theorem test_decode_TAY : decode [0xA8, 0xEA] = .ok .tay [0xEA] := by decide
theorem test_decode_TXA : decode [0x8A, 0xEA] = .ok .txa [0xEA] := by decide
theorem test_decode_TYA : decode [0x98, 0xEA] = .ok .tya [0xEA] := by decide
theorem test_decode_TSX : decode [0xBA, 0xEA] = .ok .tsx [0xEA] := by decide
theorem test_decode_TXS : decode [0x9A, 0xEA] = .ok .txs [0xEA] := by decide
theorem test_decode_CLC : decode [0x18, 0xEA] = .ok .clc [0xEA] := by decide
theorem test_decode_SEC : decode [0x38, 0xEA] = .ok .sec [0xEA] := by decide
theorem test_decode_CLI : decode [0x58, 0xEA] = .ok .cli [0xEA] := by decide
theorem test_decode_SEI : decode [0x78, 0xEA] = .ok .sei [0xEA] := by decide
theorem test_decode_CLD : decode [0xD8, 0xEA] = .ok .cld [0xEA] := by decide
theorem test_decode_SED : decode [0xF8, 0xEA] = .ok .sed [0xEA] := by decide
theorem test_decode_CLV : decode [0xB8, 0xEA] = .ok .clv [0xEA] := by decide
theorem test_decode_PHA : decode [0x48, 0xEA] = .ok .pha [0xEA] := by decide
theorem test_decode_PHP : decode [0x08, 0xEA] = .ok .php [0xEA] := by decide
theorem test_decode_PLA : decode [0x68, 0xEA] = .ok .pla [0xEA] := by decide
theorem test_decode_PLP : decode [0x28, 0xEA] = .ok .plp [0xEA] := by decide
theorem test_decode_BCC : decode [0x90, 0x81] = .ok (.bcc 0x81) [] := by decide
theorem test_decode_BCS : decode [0xB0, 0x81] = .ok (.bcs 0x81) [] := by decide
theorem test_decode_BEQ : decode [0xF0, 0x81] = .ok (.beq 0x81) [] := by decide
theorem test_decode_BNE : decode [0xD0, 0x81] = .ok (.bne 0x81) [] := by decide
theorem test_decode_BMI : decode [0x30, 0x81] = .ok (.bmi 0x81) [] := by decide
theorem test_decode_BPL : decode [0x10, 0x81] = .ok (.bpl 0x81) [] := by decide
theorem test_decode_BVC : decode [0x50, 0x81] = .ok (.bvc 0x81) [] := by decide
theorem test_decode_BVS : decode [0x70, 0x81] = .ok (.bvs 0x81) [] := by decide
theorem test_decode_JMP :
    decode [0x4C, 0x34, 0x12] = .ok (.jmpAbs 0x1234) [] ∧
    decode [0x6C, 0x34, 0x12] = .ok (.jmpInd 0x1234) [] := by decide
theorem test_decode_JSR : decode [0x20, 0x34, 0x12] = .ok (.jsr 0x1234) [] := by decide
theorem test_decode_RTS : decode [0x60, 0xEA] = .ok .rts [0xEA] := by decide
theorem test_decode_BRK : decode [0x00, 0xEA] = .ok .brk [0xEA] := by decide
theorem test_decode_RTI : decode [0x40, 0xEA] = .ok .rti [0xEA] := by decide
theorem test_decode_NOP : decode [0xEA, 0xEA] = .ok .nop [0xEA] := by decide
theorem test_decode_ILLEGAL :
    decode [0x02, 0x34] = .ok (.illegal 0x02) [0x34] ∧
    decode [0x80, 0x34] = .ok (.illegal 0x80) [0x34] ∧
    decode [0xFF] = .ok (.illegal 0xFF) [] := by decide
theorem test_decode_rejects_short :
    decode [] = .reject .noOpcode ∧ decode [0xA9] = .reject .missingOperand ∧
    decode [0xAD, 0x34] = .reject .missingOperand := by decide
theorem test_decodeTableWord :
    decodeTableWord 24 0x1234BD = some (.ldaAbx 0x1234) ∧
    decodeTableWord 8 0x00 = some .brk ∧ decodeTableWord 8 0xAD = some (.ldaAbs 0) := by decide
theorem test_withFetchWord_runs :
    next (step (State.reset.withFetchWord 16 0x42A9)) (fun t => t.a == 0x42 && t.pc == 2) = true := by
  decide

/-! ### One step: rows of `95_test_vectors.md`, sections 2.1 to 2.10 -/

-- V1: LDA #$42
theorem test_LDA_V1 :
    next (step (at_ 0x0300 [0xA9, 0x42]))
      (fun t => t.a == 0x42 && t.pc == 0x0302) = true := by decide
-- V2: LDA $80
theorem test_LDA_V2 :
    next (step (at_ 0x0200 [0xA5, 0x80] [(0x0080, 0x5A)]))
      (fun t => t.a == 0x5A) = true := by decide
-- V3: LDA $FF,X
theorem test_LDA_V3 :
    next (step { at_ 0x0200 [0xB5, 0xFF] [(0x0000, 0x77), (0x0100, 0x11)] with x := 0x01 })
      (fun t => t.a == 0x77 && t.pending == 3) = true := by decide
-- V4: LDX $80,Y
theorem test_LDX_V4 :
    next (step { at_ 0x0200 [0xB6, 0x80] [(0x0010, 0x33)] with y := 0x90 })
      (fun t => t.x == 0x33) = true := by decide
-- V5: LDA $1234
theorem test_LDA_V5 :
    next (step (at_ 0x0200 [0xAD, 0x34, 0x12] [(0x1234, 0x99)]))
      (fun t => t.a == 0x99 && t.p == 0xA4) = true := by decide
-- V7: LDA $12FF,X
theorem test_LDA_V7 :
    next (step { at_ 0x0200 [0xBD, 0xFF, 0x12] [(0x1300, 0x02)] with x := 0x01 })
      (fun t => t.a == 0x02 && t.pending == 4) = true := by decide
-- V9: LDA $20F0,Y
theorem test_LDA_V9 :
    next (step { at_ 0x0200 [0xB9, 0xF0, 0x20] [(0x2110, 0x04)] with y := 0x20 })
      (fun t => t.a == 0x04 && t.pending == 4) = true := by decide
-- V13: LDA ($FE,X)
theorem test_LDA_V13 :
    next (step { at_ 0x0200 [0xA1, 0xFE] [(0x0000, 0x40), (0x00FF, 0x00), (0x4000, 0x66)] with x := 0x01 })
      (fun t => t.a == 0x66 && t.pending == 5) = true := by decide
-- V15: LDA ($86),Y
theorem test_LDA_V15 :
    next (step { at_ 0x0200 [0xB1, 0x86] [(0x0086, 0xF8), (0x0087, 0x40), (0x4108, 0x08)] with y := 0x10 })
      (fun t => t.a == 0x08 && t.pending == 5) = true := by decide
-- V16: LDA ($FF),Y
theorem test_LDA_V16 :
    next (step { at_ 0x0200 [0xB1, 0xFF] [(0x0000, 0x50), (0x00FF, 0x10), (0x5011, 0x09)] with y := 0x01 })
      (fun t => t.a == 0x09 && t.pending == 4) = true := by decide
-- V20: LDA $1234
theorem test_LDA_V20 :
    next (step (at_ 0xFFFE [0xAD, 0x34, 0x12] [(0x1234, 0x01)]))
      (fun t => t.a == 0x01 && t.pc == 0x0001) = true := by decide
-- V21: LDA #$00
theorem test_LDA_V21 :
    next (step { at_ 0x0200 [0xA9, 0x00] with a := 0x11, p := 0xA4 })
      (fun t => t.a == 0x00 && t.p == 0x26) = true := by decide
-- V25: LDX $20F0,Y
theorem test_LDX_V25 :
    next (step { at_ 0x0200 [0xBE, 0xF0, 0x20] [(0x2110, 0xFE)] with y := 0x20 })
      (fun t => t.x == 0xFE && t.p == 0xA4) = true := by decide
-- V27: LDY $3000,X
theorem test_LDY_V27 :
    next (step { at_ 0x0200 [0xBC, 0x00, 0x30] [(0x3001, 0x00)] with x := 0x01 })
      (fun t => t.y == 0x00 && t.p == 0x26) = true := by decide
-- V17: STA $12FF,X
theorem test_STA_V17 :
    next (step { at_ 0x0200 [0x9D, 0xFF, 0x12] with a := 0xAA, x := 0x01 })
      (fun t => writes t == [(0x1300, 0xAA)] && t.pending == 4) = true := by decide
-- V18: STA ($86),Y
theorem test_STA_V18 :
    next (step { at_ 0x0200 [0x91, 0x86] [(0x0086, 0xF8), (0x0087, 0x40)] with a := 0xBB, y := 0x10 })
      (fun t => writes t == [(0x4108, 0xBB)] && t.pending == 5) = true := by decide
-- V32: STX $F0,Y
theorem test_STX_V32 :
    next (step { at_ 0x0200 [0x96, 0xF0] with x := 0x06, y := 0x20 })
      (fun t => writes t == [(0x0010, 0x06)]) = true := by decide
-- V34: STY $FF,X
theorem test_STY_V34 :
    next (step { at_ 0x0200 [0x94, 0xFF] with x := 0x02, y := 0x09 })
      (fun t => writes t == [(0x0001, 0x09)]) = true := by decide
-- V30: STA ($20,X)
theorem test_STA_V30 :
    next (step { at_ 0x0200 [0x81, 0x20] [(0x0024, 0x00), (0x0025, 0x31)] with a := 0x5A, x := 0x04 })
      (fun t => writes t == [(0x3100, 0x5A)]) = true := by decide
-- V37: ADC #$01
theorem test_ADC_V37 :
    next (step { at_ 0x0200 [0x69, 0x01] with a := 0x7F, p := 0x20 })
      (fun t => t.a == 0x80 && t.p == 0xE0) = true := by decide
-- V44: ADC #$01
theorem test_ADC_V44 :
    next (step { at_ 0x0200 [0x69, 0x01] with a := 0x99, p := 0x28 })
      (fun t => t.a == 0x00 && t.p == 0xA9) = true := by decide
-- V53: SBC #$01
theorem test_SBC_V53 :
    next (step { at_ 0x0200 [0xE9, 0x01] with a := 0x80, p := 0x21 })
      (fun t => t.a == 0x7F && t.p == 0x61) = true := by decide
-- V59: SBC #$01
theorem test_SBC_V59 :
    next (step { at_ 0x0200 [0xE9, 0x01] with a := 0x00, p := 0x29 })
      (fun t => t.a == 0x99 && t.p == 0xA8) = true := by decide
-- V65: CMP #$20
theorem test_CMP_V65 :
    next (step { at_ 0x0200 [0xC9, 0x20] with a := 0x20, x := 0x20, y := 0x20, p := 0x20 })
      (fun t => t.p == 0x23) = true := by decide
-- V69: CMP #$00
theorem test_CMP_V69 :
    next (step { at_ 0x0200 [0xC9, 0x00] with a := 0xFF, x := 0xFF, y := 0xFF, p := 0x20 })
      (fun t => t.p == 0xA1) = true := by decide
-- V72: CPX #$01
theorem test_CPX_V72 :
    next (step { at_ 0x0200 [0xE0, 0x01] with a := 0x00, x := 0x00, y := 0x00, p := 0x20 })
      (fun t => t.p == 0xA0) = true := by decide
-- V74: CPY #$FF
theorem test_CPY_V74 :
    next (step { at_ 0x0200 [0xC0, 0xFF] with a := 0xFF, x := 0xFF, y := 0xFF, p := 0x20 })
      (fun t => t.p == 0x23) = true := by decide
-- V76: AND #$81
theorem test_AND_V76 :
    next (step { at_ 0x0200 [0x29, 0x81] with a := 0xC3 })
      (fun t => t.a == 0x81 && t.p == 0xA4) = true := by decide
-- V78: ORA #$80
theorem test_ORA_V78 :
    next (step { at_ 0x0200 [0x09, 0x80] with a := 0x00 })
      (fun t => t.a == 0x80 && t.p == 0xA4) = true := by decide
-- V80: EOR #$FF
theorem test_EOR_V80 :
    next (step { at_ 0x0200 [0x49, 0xFF] with a := 0x0F })
      (fun t => t.a == 0xF0 && t.p == 0xA4) = true := by decide
-- V83: BIT $3000
theorem test_BIT_V83 :
    next (step { at_ 0x0200 [0x2C, 0x00, 0x30] [(0x3000, 0xC0)] with a := 0x0F })
      (fun t => t.p == 0xE6) = true := by decide
-- V84: BIT $10
theorem test_BIT_V84 :
    next (step { at_ 0x0200 [0x24, 0x10] [(0x0010, 0x01)] with a := 0xFF, p := 0xE4 })
      (fun t => t.p == 0x24) = true := by decide
-- V86: ASL A
theorem test_ASL_V86 :
    next (step { at_ 0x0200 [0x0A] with a := 0x80 })
      (fun t => t.a == 0x00 && t.p == 0x27) = true := by decide
-- V19: ASL $12FF,X
theorem test_ASL_V19 :
    next (step { at_ 0x0200 [0x1E, 0xFF, 0x12] [(0x1300, 0x81)] with x := 0x01 })
      (fun t => writes t == [(0x1300, 0x02)] && t.pending == 6) = true := by decide
-- V88: LSR A
theorem test_LSR_V88 :
    next (step { at_ 0x0200 [0x4A] with a := 0x01 })
      (fun t => t.a == 0x00 && t.p == 0x27) = true := by decide
-- V89: LSR $3000
theorem test_LSR_V89 :
    next (step (at_ 0x0200 [0x4E, 0x00, 0x30] [(0x3000, 0xFF)]))
      (fun t => writes t == [(0x3000, 0x7F)] && t.p == 0x25) = true := by decide
-- V90: ROL A
theorem test_ROL_V90 :
    next (step { at_ 0x0200 [0x2A] with a := 0x01, p := 0x25 })
      (fun t => t.a == 0x03 && t.p == 0x24) = true := by decide
-- V92: ROL $10,X
theorem test_ROL_V92 :
    next (step { at_ 0x0200 [0x36, 0x10] [(0x0011, 0xFF)] with x := 0x01, p := 0x25 })
      (fun t => writes t == [(0x0011, 0xFF)] && t.p == 0xA5) = true := by decide
-- V93: ROR A
theorem test_ROR_V93 :
    next (step { at_ 0x0200 [0x6A] with a := 0x02, p := 0x25 })
      (fun t => t.a == 0x81 && t.p == 0xA4) = true := by decide
-- V95: ROR $12FF,X
theorem test_ROR_V95 :
    next (step { at_ 0x0200 [0x7E, 0xFF, 0x12] [(0x1300, 0x00)] with x := 0x01, p := 0x25 })
      (fun t => writes t == [(0x1300, 0x80)] && t.pending == 6) = true := by decide
-- V96: INC $10
theorem test_INC_V96 :
    next (step (at_ 0x0200 [0xE6, 0x10] [(0x0010, 0xFF)]))
      (fun t => writes t == [(0x0010, 0x00)] && t.p == 0x26) = true := by decide
-- V98: INC $12FF,X
theorem test_INC_V98 :
    next (step { at_ 0x0200 [0xFE, 0xFF, 0x12] [(0x1300, 0x41)] with x := 0x01 })
      (fun t => writes t == [(0x1300, 0x42)] && t.pending == 6) = true := by decide
-- V99: DEC $10
theorem test_DEC_V99 :
    next (step (at_ 0x0200 [0xC6, 0x10] [(0x0010, 0x00)]))
      (fun t => writes t == [(0x0010, 0xFF)] && t.p == 0xA4) = true := by decide
-- V100: DEC $FF,X
theorem test_DEC_V100 :
    next (step { at_ 0x0200 [0xD6, 0xFF] [(0x0001, 0x01)] with x := 0x02 })
      (fun t => writes t == [(0x0001, 0x00)] && t.p == 0x26) = true := by decide
-- V101: INX
theorem test_INX_V101 :
    next (step { at_ 0x0200 [0xE8] with x := 0xFF })
      (fun t => t.x == 0x00 && t.p == 0x26) = true := by decide
-- V103: INY
theorem test_INY_V103 :
    next (step { at_ 0x0200 [0xC8] with y := 0x00 })
      (fun t => t.y == 0x01) = true := by decide
-- V104: DEX
theorem test_DEX_V104 :
    next (step { at_ 0x0200 [0xCA] with x := 0x00 })
      (fun t => t.x == 0xFF && t.p == 0xA4) = true := by decide
-- V106: DEY
theorem test_DEY_V106 :
    next (step { at_ 0x0200 [0x88] with y := 0x01 })
      (fun t => t.y == 0x00 && t.p == 0x26) = true := by decide
-- V108: TAX
theorem test_TAX_V108 :
    next (step { at_ 0x0200 [0xAA] with a := 0x80 })
      (fun t => t.x == 0x80 && t.p == 0xA4) = true := by decide
-- V110: TAY
theorem test_TAY_V110 :
    next (step { at_ 0x0200 [0xA8] with a := 0x01 })
      (fun t => t.y == 0x01) = true := by decide
-- V111: TXA
theorem test_TXA_V111 :
    next (step { at_ 0x0200 [0x8A] with x := 0xFF })
      (fun t => t.a == 0xFF && t.p == 0xA4) = true := by decide
-- V112: TYA
theorem test_TYA_V112 :
    next (step { at_ 0x0200 [0x98] with a := 0x44, y := 0x00 })
      (fun t => t.a == 0x00 && t.p == 0x26) = true := by decide
-- V113: TSX
theorem test_TSX_V113 :
    next (step { at_ 0x0200 [0xBA] with sp := 0xFD })
      (fun t => t.x == 0xFD && t.p == 0xA4) = true := by decide
-- V115: TXS
theorem test_TXS_V115 :
    next (step { at_ 0x0200 [0x9A] with x := 0x00, p := 0xA4 })
      (fun t => t.sp == 0x00 && t.p == 0xA4) = true := by decide
-- V116: CLC
theorem test_CLC_V116 :
    next (step { at_ 0x0200 [0x18] with p := 0x25 })
      (fun t => t.p == 0x24) = true := by decide
-- V117: SEC
theorem test_SEC_V117 :
    next (step { at_ 0x0200 [0x38] with p := 0x24 })
      (fun t => t.p == 0x25) = true := by decide
-- V118: CLI
theorem test_CLI_V118 :
    next (step { at_ 0x0200 [0x58] with p := 0x24 })
      (fun t => t.p == 0x20) = true := by decide
-- V119: SEI
theorem test_SEI_V119 :
    next (step { at_ 0x0200 [0x78] with p := 0x20 })
      (fun t => t.p == 0x24) = true := by decide
-- V120: CLD
theorem test_CLD_V120 :
    next (step { at_ 0x0200 [0xD8] with p := 0x2C })
      (fun t => t.p == 0x24) = true := by decide
-- V121: SED
theorem test_SED_V121 :
    next (step { at_ 0x0200 [0xF8] with p := 0x24 })
      (fun t => t.p == 0x2C) = true := by decide
-- V122: CLV
theorem test_CLV_V122 :
    next (step { at_ 0x0200 [0xB8] with p := 0x64 })
      (fun t => t.p == 0x24) = true := by decide
-- V123: PHA
theorem test_PHA_V123 :
    next (step { at_ 0x0200 [0x48] with a := 0x42 })
      (fun t => writes t == [(0x01FF, 0x42)] && t.sp == 0xFE) = true := by decide
-- V124: PHA
theorem test_PHA_V124 :
    next (step { at_ 0x0200 [0x48] with a := 0x43, sp := 0x00 })
      (fun t => writes t == [(0x0100, 0x43)] && t.sp == 0xFF) = true := by decide
-- V126: PHP
theorem test_PHP_V126 :
    next (step { at_ 0x0200 [0x08] with p := 0xCB })
      (fun t => writes t == [(0x01FF, 0xFB)] && t.p == 0xCB) = true := by decide
-- V127: PLA
theorem test_PLA_V127 :
    next (step { at_ 0x0200 [0x68] [(0x01FF, 0x80)] with sp := 0xFE })
      (fun t => t.a == 0x80 && t.p == 0xA4) = true := by decide
-- V128: PLA
theorem test_PLA_V128 :
    next (step { at_ 0x0200 [0x68] [(0x0100, 0x00)] with sp := 0xFF })
      (fun t => t.a == 0x00 && t.sp == 0x00) = true := by decide
-- V129: PLP
theorem test_PLP_V129 :
    next (step { at_ 0x0200 [0x28] [(0x01FF, 0xC3)] with sp := 0xFE })
      (fun t => t.p == 0xE3 && t.sp == 0xFF) = true := by decide
-- V131: PLP
theorem test_PLP_V131 :
    next (step { at_ 0x0200 [0x28] [(0x01FF, 0xFF)] with sp := 0xFE })
      (fun t => t.p == 0xFF) = true := by decide
-- V132: BCC $0212
theorem test_BCC_V132 :
    next (step { at_ 0x0200 [0x90, 0x10] with p := 0x20 })
      (fun t => t.pc == 0x0212 && t.pending == 2) = true := by decide
-- V133: BCC $0212
theorem test_BCC_V133 :
    next (step { at_ 0x0200 [0x90, 0x10] with p := 0x21 })
      (fun t => t.pc == 0x0202 && t.pending == 1) = true := by decide
-- V134: BCS $0212
theorem test_BCS_V134 :
    next (step { at_ 0x0200 [0xB0, 0x10] with p := 0x21 })
      (fun t => t.pc == 0x0212 && t.pending == 2) = true := by decide
-- V135: BCS $0212
theorem test_BCS_V135 :
    next (step { at_ 0x0200 [0xB0, 0x10] with p := 0x20 })
      (fun t => t.pc == 0x0202) = true := by decide
-- V136: BEQ $0300
theorem test_BEQ_V136 :
    next (step { at_ 0x02FD [0xF0, 0x01] with p := 0x22 })
      (fun t => t.pc == 0x0300 && t.pending == 3) = true := by decide
-- V137: BEQ $0203
theorem test_BEQ_V137 :
    next (step { at_ 0x0200 [0xF0, 0x01] with p := 0x20 })
      (fun t => t.pc == 0x0202 && t.pending == 1) = true := by decide
-- V138: BNE $01FD
theorem test_BNE_V138 :
    next (step { at_ 0x0200 [0xD0, 0xFB] with p := 0x20 })
      (fun t => t.pc == 0x01FD && t.pending == 3) = true := by decide
-- V140: BMI $0382
theorem test_BMI_V140 :
    next (step { at_ 0x0400 [0x30, 0x80] with p := 0xA0 })
      (fun t => t.pc == 0x0382 && t.pending == 3) = true := by decide
-- V141: BMI $0382
theorem test_BMI_V141 :
    next (step { at_ 0x0400 [0x30, 0x80] with p := 0x20 })
      (fun t => t.pc == 0x0402) = true := by decide
-- V142: BPL $0481
theorem test_BPL_V142 :
    next (step { at_ 0x0400 [0x10, 0x7F] with p := 0x20 })
      (fun t => t.pc == 0x0481) = true := by decide
-- V143: BPL $0500
theorem test_BPL_V143 :
    next (step { at_ 0x04FE [0x10, 0x00] with p := 0x20 })
      (fun t => t.pc == 0x0500 && t.pending == 2) = true := by decide
-- V144: BVC $0300
theorem test_BVC_V144 :
    next (step { at_ 0x0300 [0x50, 0xFE] with p := 0x20 })
      (fun t => t.pc == 0x0300) = true := by decide
-- V145: BVC $0300
theorem test_BVC_V145 :
    next (step { at_ 0x0300 [0x50, 0xFE] with p := 0x60 })
      (fun t => t.pc == 0x0302) = true := by decide
-- V146: BVS $0071
theorem test_BVS_V146 :
    next (step { at_ 0xFFF0 [0x70, 0x7F] with p := 0x60 })
      (fun t => t.pc == 0x0071 && t.pending == 3) = true := by decide
-- V147: BVS $0071
theorem test_BVS_V147 :
    next (step { at_ 0xFFF0 [0x70, 0x7F] with p := 0x20 })
      (fun t => t.pc == 0xFFF2) = true := by decide
-- V148: JMP $1000
theorem test_JMP_V148 :
    next (step (at_ 0x0200 [0x4C, 0x00, 0x10]))
      (fun t => t.pc == 0x1000 && t.pending == 2) = true := by decide
-- V11: JMP ($30FF)
theorem test_JMP_V11 :
    next (step (at_ 0x0200 [0x6C, 0xFF, 0x30] [(0x3000, 0x02), (0x30FF, 0x01), (0x3100, 0x03)]))
      (fun t => t.pc == 0x0201 && t.pending == 4) = true := by decide
-- V150: JSR $1000
theorem test_JSR_V150 :
    next (step (at_ 0x0400 [0x20, 0x00, 0x10]))
      (fun t => writes t == [(0x01FF, 0x04), (0x01FE, 0x02)] && t.pc == 0x1000) = true := by decide
-- V151: JSR $1000
theorem test_JSR_V151 :
    next (step { at_ 0x0400 [0x20, 0x00, 0x10] with sp := 0x00 })
      (fun t => writes t == [(0x0100, 0x04), (0x01FF, 0x02)] && t.sp == 0xFE) = true := by decide
-- V152: RTS
theorem test_RTS_V152 :
    next (step { at_ 0x0200 [0x60] [(0x01FE, 0x02), (0x01FF, 0x04)] with sp := 0xFD })
      (fun t => t.pc == 0x0403 && t.sp == 0xFF) = true := by decide
-- V153: RTS
theorem test_RTS_V153 :
    next (step { at_ 0x0200 [0x60] [(0x01FE, 0xFF), (0x01FF, 0xFF)] with sp := 0xFD })
      (fun t => t.pc == 0x0000) = true := by decide
-- V155: BRK
theorem test_BRK_V155 :
    next (step { at_ 0x0400 [0x00, 0xEE] [(0xFFFE, 0x00), (0xFFFF, 0x90)] with p := 0x2F })
      (fun t => writes t == [(0x01FF, 0x04), (0x01FE, 0x02), (0x01FD, 0x3F)] && t.p == 0x2F) = true := by decide
-- V156: BRK
theorem test_BRK_V156 :
    next (step { at_ 0x0400 [0x00, 0xEE] [(0xFFFE, 0x00), (0xFFFF, 0x90)] with sp := 0x01, p := 0x20 })
      (fun t => writes t == [(0x0101, 0x04), (0x0100, 0x02), (0x01FF, 0x30)] && t.sp == 0xFE) = true := by decide
-- V157: RTI
theorem test_RTI_V157 :
    next (step { at_ 0x0200 [0x40] [(0x01FD, 0x30), (0x01FE, 0x02), (0x01FF, 0x04)] with sp := 0xFC })
      (fun t => t.p == 0x30 && t.pc == 0x0402) = true := by decide
-- V158: RTI
theorem test_RTI_V158 :
    next (step { at_ 0x0200 [0x40] [(0x01FD, 0x00), (0x01FE, 0x06), (0x01FF, 0x04)] with sp := 0xFC })
      (fun t => t.p == 0x20 && t.pc == 0x0406) = true := by decide
-- V159: NOP
theorem test_NOP_V159 :
    next (step { at_ 0x0200 [0xEA] with a := 0x12, p := 0xE7 })
      (fun t => t.p == 0xE7 && t.pc == 0x0201) = true := by decide
-- V160: ILLEGAL
theorem test_ILLEGAL_V160 :
    next (step { at_ 0x0200 [0x02] with p := 0xE7 })
      (fun t => t.pc == 0x0201 && t.pending == 1) = true := by decide

/-! ### Host calls: `95_test_vectors.md` section 2.11 -/

/-- V163's start: LDA $12FF,X crossing a page, trace mode on. -/
def v163 : State := { at_ 0x0200 [0xBD, 0xFF, 0x12] [(0x1300, 0x80)] with x := 0x01 }

/-- The last call of V163's countdown. -/
def v163c : State := { v163 with pending := 1 }

-- V163: the whole effect and the snapshot at the first call; 4 cycles remain
theorem test_trace_V163 :
    next (step v163) (fun t => t.pending == 4 && t.a == 0x80 && t.flag .N && t.trace ==
      some ⟨0x0200, [0xBD, 0xFF, 0x12], .LDA, .ABX, .word 0x1300, 0x00, 0x01, 0x00, 0xFF, 0x24⟩) =
      true := by decide
-- V163: a later call returns no snapshot and makes no access
theorem test_countdown_V163 :
    next (step { v163 with pending := 4 }) (fun t => t.pending == 3 && t.trace == none &&
      t.accesses == [] && t.pc == 0x0200) = true := by decide
-- V164: trace off
theorem test_trace_off_V164 :
    next (step { at_ 0x0200 [0xEA, 0xEA] with traceEnabled := false }) (fun t =>
      t.pending == 1 && t.pc == 0x0201 && t.trace == none) = true := by decide
-- V165: a taken branch shows its target
theorem test_trace_branch_V165 :
    next (step { at_ 0x0200 [0xF0, 0xFE] with p := 0x26 }) (fun t => t.pending == 2 &&
      t.pc == 0x0200 && t.trace.map TraceSnapshot.operand == some (.word 0x0200)) = true := by decide
-- R153: the immediate byte, and nothing for IMP and ACC
theorem test_trace_operands :
    next (step (at_ 0x0200 [0xA9, 0x42])) (fun t =>
      t.trace.map TraceSnapshot.operand == some (.byte 0x42)) = true ∧
    next (step (at_ 0x0200 [0xEA])) (fun t =>
      t.trace.map TraceSnapshot.operand == some .none) = true ∧
    next (step (at_ 0x0200 [0x0A])) (fun t =>
      t.trace.map TraceSnapshot.operand == some .none) = true := by decide
-- R81, W5: the order of the reads of JMP ($30FF)
theorem test_bus_order_W5 :
    next (step (at_ 0x0200 [0x6C, 0xFF, 0x30] [(0x3000, 0x02), (0x30FF, 0x01)])) (fun t =>
      reads t == [0x0200, 0x0201, 0x0202, 0x30FF, 0x3000]) = true := by decide
-- R48: one read, then one write
theorem test_bus_modify :
    next (step (at_ 0x0200 [0xE6, 0x10])) (fun t =>
      t.accesses.map BusAccess.shape == [(false, 0x0200), (false, 0x0201), (false, 0x0010),
        (true, 0x0010)]) = true := by decide
-- V166: masked
theorem test_irq_masked_V166 :
    irq (at_ 0x0400 []) = .next (at_ 0x0400 []) := rfl
-- V167
theorem test_irq_V167 :
    next (irq { at_ 0x0400 [] [(0xFFFF, 0x80)] with p := 0x20 }) (fun t =>
      writes t == [(0x01FF, 0x04), (0x01FE, 0x00), (0x01FD, 0x20)] && t.sp == 0xFC &&
      t.p == 0x24 && t.pc == 0x8000 && t.pending == 7) = true := by decide
-- V168
theorem test_nmi_V168 :
    next (nmi { at_ 0x1234 [] [(0xFFFB, 0x70)] with sp := 0xF0, p := 0xE7 }) (fun t =>
      writes t == [(0x01F0, 0x12), (0x01EF, 0x34), (0x01EE, 0xE7)] && t.sp == 0xED &&
      t.p == 0xE7 && t.pc == 0x7000 && t.pending == 7) = true := by decide
-- V169: the second request finds I set
theorem test_irq_after_nmi_V169 :
    next (nmi { at_ 0x0400 [] [(0xFFFB, 0x70), (0xFFFF, 0x80)] with p := 0x20 }) (fun t =>
      next (irq { t with pending := 0 }) (fun u => u.pc == 0x7000 && u.sp == 0xFC)) = true := by
  decide
-- V170
theorem test_interrupts_in_countdown_V170 :
    refusedWith (irq State.reset) .notAtBoundary = true ∧
    refusedWith (nmi State.reset) .notAtBoundary = true := by decide
-- V171, W7: the reset vector
theorem test_reset_V171 :
    next (call .reset (new (at_ 0x1234 []) Bus.ram [(0x0400, 0xEA), (0xFFFD, 0x04)] true)) (fun t =>
      t.pc == 0x0400 && t.p == 0x24 && t.sp == 0xFF && t.pending == 8 &&
      reads t == [0xFFFC, 0xFFFD] && writes t == []) = true := by decide
-- V172: the countdown is discarded, A is cleared
theorem test_reset_in_countdown_V172 :
    (let t := resetCall { at_ 0x0203 [] [(0xFFFD, 0x05)] with pending := 3, a := 0x7F }
     (t.pending, t.pc, t.a)) = (8, 0x0500, 0x00) := by decide
-- V173
theorem test_not_powered_V173 :
    refusedWith (step (new State.reset Bus.ram [] true)) .notPowered = true ∧
    refusedWith (irq (new State.reset Bus.ram [] true)) .notPowered = true ∧
    refusedWith (nmi (new State.reset Bus.ram [] true)) .notPowered = true := by decide
-- R38
theorem test_getState :
    getState (at_ 0x0400 []) = ⟨⟨.ILLEGAL, .IMP, 2⟩, 0, 0, 0, 0x0400, 0xFF, 0x24⟩ := by decide
-- R52: what the host writes is what the core reads; the access is not the core's
theorem test_hostWrite :
    (let t := hostWrite 0x0010 0x5A (at_ 0x0400 [])
     (t.byteAt 0x0010, t.accesses)) = (0x5A, []) := by decide
-- W3: after PHP and PLP, B is 1 from the pushed copy
theorem test_plp_after_php_W3 :
    next (step { at_ 0x0200 [0x08] with p := 0xE3 }) (fun t =>
      next (exec .plp t) (fun u => u.p == 0xF3 && u.sp == 0xFF)) = true := by decide

/-! ### The parameter `Bus` (R7, R43), and R141's corner case (log 17) -/

/-- A bus with 16 bytes of RAM mirrored once, a device, and ROM from 0x8000 to the top. -/
def mixedBus : Bus :=
  [⟨0x0010, 16, .mirror 0x0000⟩, ⟨0xC000, 1, .device 7⟩, ⟨0x8000, 0x8000, .rom⟩]

-- a store to ROM makes its write but leaves the byte
theorem test_bus_rom :
    next (step { at_ 0x0200 [0x8D, 0xFF, 0xFF] [(0xFFFF, 0x42)] with bus := mixedBus, a := 0x5A })
      (fun t => writes t == [(0xFFFF, 0x5A)] && t.byteAt 0xFFFF == 0x42) = true := by decide
-- a store to a mirror is read at its target
theorem test_bus_mirror :
    next (step { at_ 0x0200 [0x85, 0x1F] with bus := mixedBus, a := 0x5A })
      (fun t => writes t == [(0x001F, 0x5A)] && t.byteAt 0x000F == 0x5A && t.byteAt 0x001F == 0x5A) =
      true := by decide
-- a device answers by the accesses before the read, those of earlier calls last
theorem test_bus_device :
    ∃ t, step { at_ 0x0200 [0xAD, 0x00, 0xC0] with
        bus := mixedBus, past := [.write 0xC000 0x01] } = .next t ∧
      t.a = Config.deviceRead 7 [.read 0x0202 0xC0, .read 0x0201 0x00, .read 0x0200 0xAD,
        .write 0xC000 0x01] 0xC000 := ⟨_, rfl, rfl⟩
-- a device takes no byte of memory, and the next call remembers the write
theorem test_bus_device_write :
    next (step { at_ 0x0200 [0x8D, 0x00, 0xC0] with bus := mixedBus, a := 0x01 })
      (fun t => t.mem == (at_ 0x0200 [0x8D, 0x00, 0xC0]).mem &&
        t.beginCall.past == [.write 0xC000 0x01, .read 0x0202 0xC0, .read 0x0201 0x00,
          .read 0x0200 0x8D]) = true := by decide
-- R141's pseudocode at the two ends of memory (log 17): JSR at 0xFFFE, and at 0xFFFF
theorem test_JSR_at_top :
    next (step (at_ 0xFFFE [0x20, 0x00, 0x10])) (fun t =>
      writes t == [(0x01FF, 0x00), (0x01FE, 0x00)] && t.pc == 0x1000) = true ∧
    next (step (at_ 0xFFFF [0x20, 0x00, 0x10])) (fun t =>
      writes t == [(0x01FF, 0x00), (0x01FE, 0x01)] && t.pc == 0x1000) = true := by decide

/-! ### `State.reset` -/

/-- `State.reset` is what `reset()` leaves of a core over an empty memory whose `ea` and `cur` hold
the values of log 4 and log 5. -/
theorem test_reset_is_resetCall :
    resetCall (new { State.reset with pc := 0x1234, pending := 0 } Bus.ram [] true) = State.reset := rfl
theorem test_reset_memory_wf : State.reset.mem.wf = true := by decide
/-- Over that empty memory the ninth call fetches the byte at 0x0000, which is BRK. -/
theorem test_reset_boundary_fetches_brk :
    decode { State.reset with pending := 0 }.fetchWindow = .ok .brk [0x00, 0x00] := by decide

/-! ### Witnesses: a concrete state and operands that meet the hypotheses of each obligation -/

theorem test_witness_DecodeOfEncode :
    (Instr.ldaAbx 0xFFFF).wf = true ∧ (Instr.illegal 0xFF).wf = true := by decide
theorem test_witness_EncodeOfDecode :
    decode [0xBD, 0xFF, 0xFF, 0x02] = .ok (.ldaAbx 0xFFFF) [0x02] := by decide
theorem test_witness_EveryOpcodeDecodes :
    1 < (opcodeEntry 0xA9).mode.length ∧ 2 < (opcodeEntry 0xAD).mode.length := by decide
theorem test_witness_UndocumentedBytesAreSentinel :
    (0x02 : Byte) ∈ undocumentedOpcodes ∧ (0xFF : Byte) ∈ undocumentedOpcodes := by decide
/-- The hypotheses of StepRunsDecodedInstruction, BusAccessesInOrder and TraceSnapshotContent; and, at
the wrap of PC, the same. -/
theorem test_witness_fetch_call :
    (v163.powered = true ∧ v163.pending = 0 ∧
      decode v163.fetchWindow = .ok (.ldaAbx 0x12FF) []) ∧
    (let s := at_ 0xFFFF [0xA9, 0x42]
     s.powered = true ∧ s.pending = 0 ∧ decode s.fetchWindow = .ok (.ldaImm 0x42) [0x00]) := by
  decide
/-- One witness for each clause of TraceSnapshotContent. -/
theorem test_witness_TraceSnapshotContent :
    v163.traceEnabled = true ∧ { v163 with traceEnabled := false }.traceEnabled = false ∧
    (Instr.ldaImm 0xFF).mode = .IMM ∧ (Instr.bne 0x80).mode = .REL ∧ Instr.nop.mode = .IMP ∧
    Instr.aslAcc.mode = .ACC ∧
    ((Instr.ldaAbx 0x12FF).mode ≠ .IMM ∧ (Instr.ldaAbx 0x12FF).mode ≠ .REL ∧
      (Instr.ldaAbx 0x12FF).mode ≠ .IMP ∧ (Instr.ldaAbx 0x12FF).mode ≠ .ACC) := by decide
theorem test_witness_CountdownStepOnlyCounts :
    (State.reset.powered = true ∧ 0 < State.reset.pending) ∧
    (v163c.powered = true ∧ 0 < v163c.pending) := by
  decide
theorem test_witness_CallsTheSpecRefuses :
    (new State.reset Bus.ram [] true).powered = false ∧
    v163c.powered = true ∧ 0 < v163c.pending := by
  decide
theorem test_witness_EveryInstructionCompletes : State.reset.powered = true := by decide
/-- The last call of the countdown: k is all that remains. -/
theorem test_witness_InstructionOccupiesItsCycles :
    (v163.powered = true ∧ v163.pending = 0 ∧
      decode v163.fetchWindow = .ok (.ldaAbx 0x12FF) []) ∧
    next (step v163) (fun t => decide (0 < 4 ∧ 4 ≤ t.pending)) = true := by decide
theorem test_witness_TraceModeChangesOnlyTrace :
    v163 ≠ { v163 with traceEnabled := false } ∧
    v163.beginCall.hideTrace = { v163 with traceEnabled := false }.beginCall.hideTrace := by decide
theorem test_witness_ResetMeetsInvariant : v163.mem.wf = true := by decide
theorem test_witness_StepKeepsInvariant :
    (v163.Inv ∧ ∃ t, step v163 = .next t) ∧ (State.reset.Inv ∧ ∃ t, step State.reset = .next t) :=
  ⟨⟨by decide, _, rfl⟩, by decide, _, rfl⟩
theorem test_witness_HostActionsKeepInvariant :
    v163.Inv ∧ (HostAction.irq ≠ .step ∧ ∃ t, call .irq v163 = .next t) ∧
    (HostAction.nmi ≠ .step ∧ ∃ t, call .nmi v163 = .next t) ∧
    (HostAction.reset ≠ .step ∧ ∃ t, call .reset v163 = .next t) ∧
    (HostAction.write 0xFFFF 0x00 ≠ .step ∧ ∃ t, call (.write 0xFFFF 0x00) v163 = .next t) :=
  ⟨by decide, ⟨by decide, _, rfl⟩, ⟨by decide, _, rfl⟩, ⟨by decide, _, rfl⟩, by decide, _, rfl⟩
theorem test_witness_MemoryDeterminedByBytes :
    let m : Memory := [(0x0000, 0x01), (0xFFFF, 0x80)]
    let n : Memory := Memory.write [(0x0000, 0x01)] 0xFFFF 0x80
    m.wf = true ∧ n.wf = true ∧ ∀ a, a < Config.memorySize → m.read a = n.read a :=
  ⟨by decide, by decide, fun _ _ => rfl⟩
/-- The default bus, which every clause about bytes that stay in memory assumes. -/
theorem test_witness_default_bus : v163.bus = Bus.ram ∧ State.reset.bus = Bus.ram := by decide
theorem test_witness_StackPrimitives :
    v163.mem.wf = true ∧ { v163 with sp := 0x00 }.mem.wf = true := by decide
theorem test_witness_RegisterWriters :
    (∃ t, exec .php v163 = .next t) ∧ writesReg .A .php = false ∧ writesReg .X .php = false ∧
    writesReg .Y .php = false ∧ writesReg .SP .txa = false ∧ ∃ t, exec .txa v163 = .next t :=
  ⟨⟨_, rfl⟩, by decide, by decide, by decide, by decide, _, rfl⟩
theorem test_witness_FlagWriters :
    (∃ t, exec .brk v163 = .next t) ∧ Instr.brk.mnemonic ∉ flagWriters .D ∧
    Instr.brk.mnemonic ∉ flagWriters .B ∧ Instr.txs.mnemonic ∉ flagWriters .N ∧
    ∃ t, exec .txs v163 = .next t :=
  ⟨⟨_, rfl⟩, by decide, by decide, by decide, _, rfl⟩
theorem test_witness_MemoryWriters :
    (∃ t, exec .brk v163 = .next t) ∧ (0x01FC : Addr) ∉ storeAddrs .brk v163 ∧
    (0x01FD : Addr) ∈ storeAddrs .brk v163 :=
  ⟨⟨_, rfl⟩, by decide, by decide⟩
theorem test_witness_PcWriters :
    (∃ t, exec (.beq 0x7F) v163 = .next t) ∧
    (Instr.beq 0x7F).mnemonic ∉ [Mnemonic.JMP, .JSR, .RTS, .RTI, .BRK] ∧
    branchCycles (.beq 0x7F) v163 = 0 :=
  ⟨⟨_, rfl⟩, by decide, by decide⟩
theorem test_witness_PlainAddressingModes :
    (Instr.ldaImm 0xFF).operand = .imm 0xFF ∧ (Instr.ldaZp0 0xFF).operand = .zp0 0xFF ∧
    (Instr.ldaZpx 0xFF).operand = .zpx 0xFF ∧ (Instr.ldaAbs 0xFFFF).operand = .abs 0xFFFF ∧
    (Instr.bcc 0x80).operand = .rel 0x80 ∧ (Instr.bcc 0x7F).operand = .rel 0x7F := by decide
theorem test_witness_IndexedAddressingModes :
    (Instr.ldxZpy 0xFF).operand = .zpy 0xFF ∧ (Instr.ldaAbx 0xFFFF).operand = .abx 0xFFFF ∧
    (Instr.ldaAby 0xFFFF).operand = .aby 0xFFFF ∧ (Instr.ldaIzx 0xFF).operand = .izx 0xFF ∧
    (Instr.ldaIzy 0xFF).operand = .izy 0xFF ∧ (Instr.jmpInd 0x30FF).operand = .ind 0x30FF := by
  decide
theorem test_witness_PagePenalty :
    ((Instr.staAbx 0x12FF).wf = true ∧ (Instr.staAbx 0x12FF).row.opcode ∉ penaltyOpcodes) ∧
    ((Instr.ldaAbx 0x12FF).row.opcode ∈ penaltyOpcodes ∧ resolverExtra (.ldaAbx 0x12FF) v163 = 1 ∧
      resolverExtra (.ldaAbx 0x12FE) v163 = 0) ∧
    ((Instr.ldaAby 0x12FF).row.opcode ∈ penaltyOpcodes ∧
      resolverExtra (.ldaAby 0x12FF) { v163 with y := 0x01 } = 1) ∧
    ((Instr.ldaIzy 0xFF).row.opcode ∈ penaltyOpcodes ∧ (Instr.ldaIzy 0xFF).wf = true) := by decide
/-- LoadsTakeTheOperand, AdcResult, SbcResult, CompareSetsCarryZeroNegative, LogicCombinesBits and
BitTestsMemory: an instruction of each mnemonic. -/
theorem test_witness_mnemonics :
    (Instr.ldaIzy 0xFF).mnemonic = .LDA ∧ (Instr.ldxZpy 0xFF).mnemonic = .LDX ∧
    (Instr.ldyAbx 0xFFFF).mnemonic = .LDY ∧ (Instr.adcImm 0x99).mnemonic = .ADC ∧
    (Instr.sbcImm 0x99).mnemonic = .SBC ∧ (Instr.cmpIzx 0xFF).mnemonic = .CMP ∧
    (Instr.cpxAbs 0xFFFF).mnemonic = .CPX ∧ (Instr.cpyZp0 0xFF).mnemonic = .CPY ∧
    (Instr.andImm 0x81).mnemonic = .AND ∧ (Instr.oraImm 0x81).mnemonic = .ORA ∧
    (Instr.eorImm 0x81).mnemonic = .EOR ∧ (Instr.bitAbs 0x3000).mnemonic = .BIT := by decide
theorem test_witness_StoresWriteOneByte :
    v163.mem.wf = true ∧ (Instr.staIzy 0xFF).mnemonic = .STA ∧
    (Instr.stxZpy 0xFF).mnemonic = .STX ∧ (Instr.styZpx 0xFF).mnemonic = .STY := by decide
/-- AdcResult and SbcResult: binary and decimal mode. -/
theorem test_witness_AdcResult_SbcResult :
    v163.flag .D = false ∧ { v163 with p := 0x2D }.flag .D = true := by decide
/-- AdcDecimalAddsDecimals and SbcDecimalSubtractsDecimals, at the ends of the range. -/
theorem test_witness_decimal_digits :
    IsBcd 0x99 ∧ IsBcd 0x00 ∧ ¬ IsBcd 0x0A ∧ ¬ IsBcd 0xA0 := by unfold IsBcd; decide
theorem test_witness_ShiftsOnAccumulator :
    Instr.rorAcc.mnemonic ∈ [Mnemonic.ASL, .LSR, .ROL, .ROR] ∧ Instr.rorAcc.mode = .ACC := by decide
theorem test_witness_ShiftsOnMemory :
    (Instr.rorAbx 0x12FF).mnemonic ∈ [Mnemonic.ASL, .LSR, .ROL, .ROR] ∧
    (Instr.rorAbx 0x12FF).mode ≠ .ACC ∧ v163.mem.wf = true := by decide
theorem test_witness_IncrementDecrementMemory :
    v163.mem.wf = true ∧ (Instr.incAbx 0x12FF).mnemonic = .INC ∧
    (Instr.decZp0 0xFF).mnemonic = .DEC := by decide
theorem test_witness_FlagInstructionsWriteOneFlag :
    (Instr.clv, Flag.V, false) ∈ [(Instr.clc, Flag.C, false), (.sec, .C, true), (.cli, .I, false),
      (.sei, .I, true), (.cld, .D, false), (.sed, .D, true), (.clv, .V, false)] := by decide
/-- PushInstructions, JsrPushesReturnAddress, BrkEntersThroughVector. -/
theorem test_witness_pushes : v163.mem.wf = true ∧ { v163 with sp := 0x01 }.mem.wf = true := by decide
theorem test_witness_PlpAfterPhp :
    v163.bus = Bus.ram ∧ v163.mem.wf = true ∧ ∃ t, exec .php v163 = .next t ∧ t.sp = t.sp ∧
      t.byteAt (stackAddr v163.sp) = t.byteAt (stackAddr v163.sp) :=
  ⟨rfl, by decide, _, rfl, rfl, rfl⟩
/-- Taken and not taken, with the offset at both ends of its range. -/
theorem test_witness_BranchesTestOneFlag :
    (Instr.bcc 0x80, Flag.C, false) ∈ [(Instr.bcc 0x80, Flag.C, false), (.bcs 0x80, .C, true)] ∧
    (Instr.bvs 0x7F, Flag.V, true) ∈ [(Instr.bvc 0x7F, Flag.V, false), (.bvs 0x7F, .V, true)] ∧
    v163.flag .C = false ∧ { v163 with p := 0x25 }.flag .C ≠ false := by decide
theorem test_witness_RtsPullsReturnAddress :
    v163.bus = Bus.ram ∧ v163.mem.wf = true ∧
    ∃ t, exec (.jsr 0xFFFF) v163 = .next t ∧ t.bus = Bus.ram ∧ t.sp = t.sp ∧
      ∀ a ∈ [stackAddr v163.sp, stackAddr (v163.sp - 1)], t.byteAt a = t.byteAt a :=
  ⟨rfl, by decide, _, rfl, rfl, rfl, fun _ _ => rfl⟩
/-- The three entries; for the IRQ, I is clear. -/
theorem test_witness_RtiUndoesEntry :
    v163.bus = Bus.ram ∧ (∃ t, exec .brk v163 = .next t ∧ t.bus = Bus.ram ∧ t.sp = t.sp) ∧
    (∃ t, nmi v163 = .next t ∧ t.bus = Bus.ram ∧ t.sp = t.sp) ∧
    (∃ t, irq { v163 with p := 0x20 } = .next t ∧ t.bus = Bus.ram ∧ t.sp = t.sp) ∧
    { v163 with p := 0x20 }.flag .I = false ∧ v163.mem.wf = true :=
  ⟨rfl, ⟨_, rfl, rfl, rfl⟩, ⟨_, rfl, rfl, rfl⟩, ⟨_, rfl, rfl, rfl⟩, by decide, by decide⟩
theorem test_witness_IllegalIsNoOp : (Instr.illegal 0x02).wf = true := by decide
theorem test_witness_IrqIsMaskable_NmiIsNotMaskable :
    v163.powered = true ∧ v163.pending = 0 ∧ v163.mem.wf = true ∧ v163.flag .I = true ∧
    { v163 with p := 0x20 }.flag .I = false := by decide
theorem test_witness_NinthStepAfterResetFetches :
    decode ({ resetCall (at_ 0x0400 [0xA9, 0x42] [(0xFFFD, 0x04)]) with
      pending := 0, trace := none, accesses := [], past := [] } : State).fetchWindow = .ok (.ldaImm 0x42) [0x00] := by
  decide
/-- One witness for each kind of place; the mirror reaches the cell of its target. -/
theorem test_witness_BusAnswersReads :
    mixedBus.place 0x001F = .ram 0x000F ∧ mixedBus.place 0x000F = .ram 0x000F ∧
    mixedBus.place 0x0020 = .ram 0x0020 ∧ mixedBus.place 0xFFFF = .rom 0xFFFF ∧
    mixedBus.place 0xC000 = .device 7 0xC000 ∧ mixedBus.place 0xC001 = .rom 0xC001 ∧
    v163.mem.wf = true := by decide
theorem test_witness_AccessLogIsConsistent :
    (∃ t, exec .brk v163 = .next t) ∧ (∃ t, call .step v163 = .next t) ∧
    (∃ t, call .reset v163 = .next t) ∧ (∃ t, call .irq v163 = .next t) ∧
    (∃ t, call .nmi v163 = .next t) ∧ ∃ t, call (.write 0xFFFF 0x00) v163 = .next t :=
  ⟨⟨_, rfl⟩, ⟨_, rfl⟩, ⟨_, rfl⟩, ⟨_, rfl⟩, ⟨_, rfl⟩, _, rfl⟩

end Sys2Proof.Tests
end

section
/-! Family `00_scope.md` (R7): the calls the spec refuses, and what every instruction keeps of the
core's construction arguments and leaves in `cur` and `ea`. -/

namespace Sys2Proof.Machine

/-! ### Refused calls (`10_state.md` R35, `60_exceptions.md` R159) -/

/-- Before the first reset a `step` is refused (R35, D12). -/
theorem step_of_not_powered {s : State} (h : s.powered = false) :
    step s = .refused .notPowered := by
  simp [step, h]

/-- Before the first reset an interrupt request is refused, whatever it would answer (R159, D12). -/
theorem admitted_of_not_powered {s : State} (answer : State) (h : s.powered = false) :
    admitted s answer = .refused .notPowered := by
  simp [admitted, h]

/-- Away from a boundary a powered core refuses an interrupt request (R159, D9). -/
theorem admitted_of_pending {s : State} (answer : State) (hp : s.powered = true)
    (h : 0 < s.pending) : admitted s answer = .refused .notAtBoundary := by
  simp [admitted, hp, Nat.ne_of_gt h]

/-- Settles O8: `irq` and `nmi` share one admission rule, and `new` writes the four fields named. -/
theorem callsTheSpecRefuses : Obligations.CallsTheSpecRefuses := by
  refine ⟨fun s h => ?_, fun u bus m b => ?_, fun s hp h => ?_⟩
  · exact ⟨step_of_not_powered h, admitted_of_not_powered _ h, admitted_of_not_powered _ h⟩
  · exact ⟨rfl, rfl, rfl, rfl⟩
  · exact ⟨admitted_of_pending _ hp h, admitted_of_pending _ hp h⟩

/-! ### What the semantics of an instruction never write -/

/-- The part of the state that is settled once an instruction's operand is resolved: no semantics
write it (R7, R32, R35, R37; for `ea` and `past` the model's choice, log 4 and log 16). -/
structure InstrContext where
  cur          : OpEntry
  ea           : Addr
  powered      : Bool
  traceEnabled : Bool
  bus          : Bus
  past         : List BusAccess

/-- Reads that part of a state. -/
def State.context (s : State) : InstrContext :=
  ⟨s.cur, s.ea, s.powered, s.traceEnabled, s.bus, s.past⟩

theorem State.noteReads_context (s : State) (l : List Addr) :
    (s.noteReads l).context = s.context := by
  simp [State.context]

/-- A read-modify-write writes A, P, memory and the record of accesses, whatever it computes. -/
theorem modify_context (o : Operand) (f : Byte → Byte → ModifyResult) (s : State) :
    (modify o f s).context = s.context := by
  cases o <;> simp [modify, State.context]

/-! ### Each skeleton keeps the context the resolver left, if its semantics do -/

theorem runPlain_context {i : Instr} {f : State → State} {s : State}
    (hf : ∀ r, (f r).context = r.context) :
    Answers (runPlain i f s) fun t => t.context = (resolve i s).context :=
  ⟨_, runPlain_eq i f s, hf _⟩

theorem runRead_context {i : Instr} {f : Byte → State → State} {s : State}
    (hf : ∀ m r, (f m r).context = r.context) :
    Answers (runRead i f s) fun t => t.context = (resolve i s).context :=
  ⟨_, runRead_eq i f s, (hf _ _).trans (State.noteReads_context _ _)⟩

theorem runStore_context {i : Instr} {reg : State → Byte} {s : State} :
    Answers (runStore i reg s) fun t => t.context = (resolve i s).context :=
  runPlain_context fun _ => by simp [State.context]

theorem runModify_context {i : Instr} {f : Byte → Byte → ModifyResult} {s : State} :
    Answers (runModify i f s) fun t => t.context = (resolve i s).context :=
  runPlain_context (modify_context _ f)

theorem runBranch_context {i : Instr} {cond : State → Bool} {s : State} :
    Answers (runBranch i cond s) fun t => t.context = (resolve i s).context := by
  cases h : cond (resolve i s) with
  | false => exact ⟨_, runBranch_not_taken i cond s h, by simp [State.context]⟩
  | true => exact ⟨_, runBranch_taken i cond s h, by simp [State.context]⟩

/-- Every instruction completes, and its semantics keep the context the resolver left. -/
theorem exec_context (i : Instr) (s : State) :
    Answers (exec i s) fun t => t.context = (resolve i s).context := by
  rw [exec_eq_execByMnemonic, execByMnemonic]
  cases i.mnemonic with
  | LDA | LDX | LDY | ADC | SBC | CMP | CPX | CPY | AND | ORA | EOR | BIT =>
    exact runRead_context fun _ _ => by
      simp [State.context, loadA, loadX, loadY, addToA, subFromA, compareWith, andA, orA, eorA,
        bitTest]
  | STA | STX | STY => exact runStore_context
  | ASL | LSR | ROL | ROR | INC | DEC => exact runModify_context
  | BCC | BCS | BEQ | BNE | BMI | BPL | BVC | BVS => exact runBranch_context
  | INX | INY | DEX | DEY | TAX | TAY | TXA | TYA | TSX | TXS
  | CLC | SEC | CLI | SEI | CLD | SED | CLV
  | PHA | PHP | JMP | RTI | NOP | ILLEGAL =>
    exact runPlain_context fun _ => by simp [State.context]
  | PLA | PLP | JSR | RTS | BRK =>
    exact runPlain_context fun _ => by
      simp [State.context, pullA, pullP, callSubroutine, returnFromSubroutine, softwareBreak]

/-- Settles O24: the resolver sets `cur` and `ea`, and no semantics write the context after it. -/
theorem eaAndCurAreOfTheInstruction : Obligations.EaAndCurAreOfTheInstruction := by
  intro i s
  obtain ⟨t, ht, hc⟩ := exec_context i s
  exact ⟨t, ht, by simpa [State.context] using hc⟩

end Sys2Proof.Machine
end

section
/-! Family `10_state.md` (R15 to R27, R39): every instruction as resolver, then semantics, then cycle count;
who writes each register, each flag and PC; and the invariant, after reset, over every step and over
every other action of the host. -/

namespace Sys2Proof.Machine

/-! ### An instruction's semantics, apart from the resolver and the cycle count -/

/-- The branch is taken: the flag it tests has the value it tests for (R130, R131). -/
def branchTaken (i : Instr) (s : State) : Bool :=
  match branchTest i.mnemonic with
  | none        => false
  | some (f, v) => decide (s.flag f = v)

/-- What a reading instruction does after the resolver: the operand's read, then `f` on the byte. -/
def onOperand (i : Instr) (f : Byte → State → State) (r : State) : State :=
  f (operandByte i r).1 (operandByte i r).2

/-- What a branch does after the resolver (R130). -/
def branchOrStay (i : Instr) (r : State) : State :=
  bif branchTaken i r then r.setPc (r.pc + r.ea) else r

/-- What an instruction does to the state the resolver leaves, its cycles not yet charged. -/
def semantics (i : Instr) (r : State) : State :=
  match i.mnemonic with
  | .LDA => onOperand i loadA r
  | .LDX => onOperand i loadX r
  | .LDY => onOperand i loadY r
  | .STA => memWrite r.ea r.a r
  | .STX => memWrite r.ea r.x r
  | .STY => memWrite r.ea r.y r
  | .ADC => onOperand i addToA r
  | .SBC => onOperand i subFromA r
  | .CMP => onOperand i (compareWith State.a) r
  | .CPX => onOperand i (compareWith State.x) r
  | .CPY => onOperand i (compareWith State.y) r
  | .AND => onOperand i andA r
  | .ORA => onOperand i orA r
  | .EOR => onOperand i eorA r
  | .BIT => onOperand i bitTest r
  | .ASL => modify i.operand aslByte r
  | .LSR => modify i.operand lsrByte r
  | .ROL => modify i.operand rolByte r
  | .ROR => modify i.operand rorByte r
  | .INC => modify i.operand incByte r
  | .DEC => modify i.operand decByte r
  | .INX => (r.setX (r.x + 1)).setNZ (r.x + 1)
  | .INY => (r.setY (r.y + 1)).setNZ (r.y + 1)
  | .DEX => (r.setX (r.x - 1)).setNZ (r.x - 1)
  | .DEY => (r.setY (r.y - 1)).setNZ (r.y - 1)
  | .TAX => (r.setX r.a).setNZ r.a
  | .TAY => (r.setY r.a).setNZ r.a
  | .TXA => (r.setA r.x).setNZ r.x
  | .TYA => (r.setA r.y).setNZ r.y
  | .TSX => (r.setX r.sp).setNZ r.sp
  | .TXS => r.setSp r.x
  | .CLC => r.setFlag .C false
  | .SEC => r.setFlag .C true
  | .CLI => r.setFlag .I false
  | .SEI => r.setFlag .I true
  | .CLD => r.setFlag .D false
  | .SED => r.setFlag .D true
  | .CLV => r.setFlag .V false
  | .PHA => push r.a r
  | .PHP => push (pushedP r.p true) r
  | .PLA => pullA r
  | .PLP => pullP r
  | .BCC | .BCS | .BEQ | .BNE | .BMI | .BPL | .BVC | .BVS => branchOrStay i r
  | .JMP => r.setPc r.ea
  | .JSR => callSubroutine r
  | .RTS => returnFromSubroutine r
  | .BRK => softwareBreak r
  | .RTI => returnFromInterrupt r
  | .NOP | .ILLEGAL => r

/-! ### Cycle counts (R149) -/

/-- The resolver decides no branch: it writes no flag. -/
theorem branchTaken_resolve (i : Instr) (s : State) :
    branchTaken i (resolve i s) = branchTaken i s := by
  simp [branchTaken]

/-- The extra cycles of a branch are those of R130 when it is taken, and none else. -/
theorem branchCycles_eq (i : Instr) (s : State) :
    branchCycles i s = bif branchTaken i s then
      branchExtra (nextPc i s) (nextPc i s + effectiveAddress i.operand s) else 0 := by
  unfold branchCycles branchTaken
  cases branchTest i.mnemonic with
  | none => rfl
  | some b => by_cases hb : s.flag b.1 = b.2 <;> simp [hb, branchExtra]

/-- An instruction that is not a branch has no branch cycles. -/
theorem branchCycles_of_not_branch {i : Instr} (h : branchTest i.mnemonic = none) (s : State) :
    branchCycles i s = 0 := by
  simp [branchCycles, h]

theorem branchExtra_bounds (old new : Addr) :
    1 ≤ branchExtra old new ∧ branchExtra old new ≤ 2 := by
  unfold branchExtra
  split <;> decide

/-- A branch without extra cycles is one not taken. -/
theorem branchTaken_of_branchCycles {i : Instr} {s : State} (h : branchCycles i s = 0) :
    branchTaken i s = false := by
  cases ht : branchTaken i s with
  | false => rfl
  | true =>
    have := (branchExtra_bounds (nextPc i s) (nextPc i s + effectiveAddress i.operand s)).1
    simp only [branchCycles_eq, ht, cond_true] at h
    omega

/-- A mnemonic that never pays for a page crossing gets no extra cycle from the resolver (R80). -/
theorem resolverExtra_of_not_pays {i : Instr} (h : paysPagePenalty i.mnemonic = false) (s : State) :
    resolverExtra i s = 0 := by
  simp [resolverExtra, pagePenalty, h]

/-- No branch pays for a page crossing of the resolver (R80, R130). -/
theorem not_pays_of_branch {m : Mnemonic} {b : Flag × Bool} (h : branchTest m = some b) :
    paysPagePenalty m = false := by
  have table : (paysPagePenalty m && (branchTest m).isSome) = false := by cases m <;> rfl
  simpa [h] using table

/-- Every row of the table takes at most 7 cycles (R62). -/
theorem baseCycles_le (i : Instr) : i.entry.baseCycles ≤ 7 := by
  cases i <;> exact Nat.le_of_ble_eq_true rfl

theorem resolverExtra_le (i : Instr) (s : State) : resolverExtra i s ≤ 1 := by
  unfold resolverExtra pagePenalty
  split <;> decide

theorem branchCycles_le (i : Instr) (s : State) : branchCycles i s ≤ 2 := by
  rw [branchCycles_eq]
  cases branchTaken i s with
  | false => exact Nat.zero_le _
  | true => exact (branchExtra_bounds _ _).2

/-- No instruction takes more than 9 cycles: the two kinds of extra cycle exclude each other. -/
theorem cyclesOf_le (i : Instr) (s : State) : cyclesOf i s ≤ 9 := by
  have hbase := baseCycles_le i
  unfold cyclesOf
  cases h : branchTest i.mnemonic with
  | none =>
    have hpage := resolverExtra_le i s
    rw [branchCycles_of_not_branch h]
    omega
  | some b =>
    have hbranch := branchCycles_le i s
    rw [resolverExtra_of_not_pays (not_pays_of_branch h)]
    omega

/-! ### `exec` is the resolver, the semantics and the cycle count -/

/-- A branch whose condition is its row of R131. -/
theorem runBranch_eq {i : Instr} {cond : State → Bool} {s : State} {b : Flag × Bool}
    (hb : branchTest i.mnemonic = some b) (hc : ∀ r, cond r = branchTaken i r) :
    runBranch i cond s =
      .next ((branchOrStay i (resolve i s)).setPending (cyclesOf i s)) := by
  rw [cyclesOf, branchCycles_eq, resolverExtra_of_not_pays (not_pays_of_branch hb), branchOrStay,
    branchTaken_resolve]
  have hcond := (hc (resolve i s)).trans (branchTaken_resolve i s)
  cases ht : branchTaken i s with
  | false => rw [runBranch_not_taken i cond s (hcond.trans ht)]; rfl
  | true => rw [runBranch_taken i cond s (hcond.trans ht)]; rfl

/-- A plain instruction that is not a branch is charged `cyclesOf`. -/
theorem runPlain_eq_cyclesOf {i : Instr} (h : branchTest i.mnemonic = none) (f : State → State)
    (s : State) : runPlain i f s = .next ((f (resolve i s)).setPending (cyclesOf i s)) := by
  rw [runPlain_eq, cyclesOf, branchCycles_of_not_branch h, Nat.add_zero]

/-- Every instruction completes: it resolves its operand, runs its semantics and is charged its
cycles (R147 to R149). -/
theorem exec_eq (i : Instr) (s : State) :
    exec i s = .next ((semantics i (resolve i s)).setPending (cyclesOf i s)) := by
  rw [exec_eq_execByMnemonic, execByMnemonic, semantics]
  cases hm : i.mnemonic with
  | BCC | BCS | BEQ | BNE | BMI | BPL | BVC | BVS =>
    exact runBranch_eq (by rw [hm]; rfl) fun r => by simp [branchTaken, hm, branchTest]
  | _ => exact runPlain_eq_cyclesOf (by rw [hm]; rfl) _ s

/-- The one next state an instruction has. -/
theorem eq_of_exec {i : Instr} {s t : State} (h : exec i s = .next t) :
    t = (semantics i (resolve i s)).setPending (cyclesOf i s) := by
  rw [exec_eq] at h
  exact (Host.Outcome.next.inj h).symm


/-! ### Registers by name -/

@[simp] theorem State.setA_reg (s : State) (v : Byte) {r : Reg} (h : r ≠ .A) :
    (s.setA v).reg r = s.reg r := by
  cases r with
  | A => exact absurd rfl h
  | _ => rfl
@[simp] theorem State.setX_reg (s : State) (v : Byte) {r : Reg} (h : r ≠ .X) :
    (s.setX v).reg r = s.reg r := by
  cases r with
  | X => exact absurd rfl h
  | _ => rfl
@[simp] theorem State.setY_reg (s : State) (v : Byte) {r : Reg} (h : r ≠ .Y) :
    (s.setY v).reg r = s.reg r := by
  cases r with
  | Y => exact absurd rfl h
  | _ => rfl
@[simp] theorem State.setSp_reg (s : State) (v : Byte) {r : Reg} (h : r ≠ .SP) :
    (s.setSp v).reg r = s.reg r := by
  cases r with
  | SP => exact absurd rfl h
  | _ => rfl
@[simp] theorem State.setPc_reg (s : State) (v : Addr) (r : Reg) :
    (s.setPc v).reg r = s.reg r := by cases r <;> rfl
@[simp] theorem State.setP_reg (s : State) (v : Byte) (r : Reg) :
    (s.setP v).reg r = s.reg r := by cases r <;> rfl
@[simp] theorem State.setPending_reg (s : State) (n : Nat) (r : Reg) :
    (s.setPending n).reg r = s.reg r := by cases r <;> rfl
@[simp] theorem State.noteRead_reg (s : State) (a : Addr) (r : Reg) :
    (s.noteRead a).reg r = s.reg r := by cases r <;> rfl
@[simp] theorem State.noteReads_reg (s : State) (l : List Addr) (r : Reg) :
    (s.noteReads l).reg r = s.reg r := by cases r <;> simp [State.reg]
@[simp] theorem memWrite_reg (a : Addr) (v : Byte) (s : State) (r : Reg) :
    (memWrite a v s).reg r = s.reg r := by cases r <;> rfl
@[simp] theorem resolve_reg (i : Instr) (s : State) (r : Reg) :
    (resolve i s).reg r = s.reg r := by cases r <;> simp [State.reg]

/-! ### Which registers the semantics write (R15, R18) -/

/-- A read-modify-write leaves every register but A alone. -/
theorem modify_reg {r : Reg} (h : r ≠ .A) (o : Operand) (f : Byte → Byte → ModifyResult)
    (s : State) : (modify o f s).reg r = s.reg r := by
  cases o <;> simp [modify, h]

/-- A read-modify-write on memory leaves A alone too. -/
theorem modify_reg_of_memory {o : Operand} (h : o.mode ≠ .ACC) (h' : o.mode ≠ .IMP) (r : Reg)
    (f : Byte → Byte → ModifyResult) (s : State) : (modify o f s).reg r = s.reg r := by
  simp [modify_mem o f s h h']

/-- Of the read-modify-write forms, only those that R15 counts as writers of A work on A (R102). -/
theorem modify_mode_of_not_writesA {i : Instr} (hm : i.mnemonic ∈ modifyMnemonics)
    (hw : writesReg .A i = false) : i.operand.mode ≠ .ACC ∧ i.operand.mode ≠ .IMP := by
  have table : (modifyMnemonics.contains i.mnemonic && !writesReg .A i &&
      (i.operand.mode == .ACC || i.operand.mode == .IMP)) = false := by
    cases i <;> rfl
  simpa [hm, hw] using table

/-- A read-modify-write instruction writes A only in the accumulator form. -/
theorem modify_reg_of_not_writes {i : Instr} {r : Reg} (hm : i.mnemonic ∈ modifyMnemonics)
    (hw : writesReg r i = false) (f : Byte → Byte → ModifyResult) (s : State) :
    (modify i.operand f s).reg r = s.reg r := by
  by_cases hr : r = .A
  · subst hr
    obtain ⟨hacc, himp⟩ := modify_mode_of_not_writesA hm hw
    exact modify_reg_of_memory hacc himp _ f s
  · exact modify_reg hr _ f s

/-- An instruction that writes one register and not another names two registers. -/
theorem reg_ne_of_writesReg {i : Instr} {r q : Reg} (hr : writesReg r i = false)
    (hq : writesReg q i = true) : r ≠ q := by
  rintro rfl
  simp [hr] at hq

/-- The semantics leave alone every register R15 and R18 do not name for the instruction. -/
theorem semantics_reg {i : Instr} {r : Reg} (h : writesReg r i = false) (s : State) :
    (semantics i s).reg r = s.reg r := by
  rw [semantics]
  cases hm : i.mnemonic with
  | LDA | TXA | TYA | AND | ORA | EOR | ADC | SBC =>
    have hA : r ≠ .A := reg_ne_of_writesReg h (by simp [writesReg, hm])
    simp [onOperand, loadA, andA, orA, eorA, addToA, subFromA, hA]
  | LDX | TAX | TSX | INX | DEX =>
    have hX : r ≠ .X := reg_ne_of_writesReg h (by simp [writesReg, hm])
    simp [onOperand, loadX, hX]
  | LDY | TAY | INY | DEY =>
    have hY : r ≠ .Y := reg_ne_of_writesReg h (by simp [writesReg, hm])
    simp [onOperand, loadY, hY]
  | TXS | PHA | PHP | PLP | JSR | RTS | BRK | RTI =>
    have hSP : r ≠ .SP := reg_ne_of_writesReg h (by simp [writesReg, hm])
    simp [push, pushWord, pull, pullP, pullWord, callSubroutine, returnFromSubroutine,
      softwareBreak, enter, returnFromInterrupt, hSP]
  | PLA =>
    have hA : r ≠ .A := reg_ne_of_writesReg h (by simp [writesReg, hm])
    have hSP : r ≠ .SP := reg_ne_of_writesReg h (by simp [writesReg, hm])
    simp [pullA, pull, hA, hSP]
  | ASL | LSR | ROL | ROR | INC | DEC =>
    exact modify_reg_of_not_writes (by rw [hm]; decide) h _ s
  | BCC | BCS | BEQ | BNE | BMI | BPL | BVC | BVS =>
    cases ht : branchTaken i s <;> simp [branchOrStay, ht]
  | STA | STX | STY | CMP | CPX | CPY | BIT | CLC | SEC | CLI | SEI | CLD | SED | CLV
  | JMP | NOP | ILLEGAL =>
    simp [onOperand, compareWith, bitTest]

/-- Settles O20: neither the resolver nor the cycle count writes a register, and the semantics write
only the ones named. -/
theorem registerWriters : Obligations.RegisterWriters := by
  intro r i s t ht hw
  rw [eq_of_exec ht, State.setPending_reg, semantics_reg hw, resolve_reg]

/-! ### Which flags the semantics write (R20 to R27) -/

section
variable {f : Flag}

theorem getFlag_putFlag_of_ne {g : Flag} (h : f ≠ g) (p : Byte) (v : Bool) :
    getFlag (putFlag p g v) f = getFlag p f := by
  simp [h.symm]

theorem getFlag_setNZ_of_ne (hN : f ≠ .N) (hZ : f ≠ .Z) (p r : Byte) :
    getFlag (setNZ p r) f = getFlag p f := by
  simp [hN, hZ]

theorem getFlag_compareFlags_of_ne (hN : f ≠ .N) (hZ : f ≠ .Z) (hC : f ≠ .C) (r m p : Byte) :
    getFlag (compareFlags r m p) f = getFlag p f := by
  rw [compareFlags, getFlag_putFlag_of_ne hN, getFlag_putFlag_of_ne hZ, getFlag_putFlag_of_ne hC]

theorem getFlag_bitFlags_of_ne (hN : f ≠ .N) (hZ : f ≠ .Z) (hV : f ≠ .V) (a m p : Byte) :
    getFlag (bitFlags a m p) f = getFlag p f := by
  rw [bitFlags, getFlag_putFlag_of_ne hV, getFlag_putFlag_of_ne hN, getFlag_putFlag_of_ne hZ]

theorem getFlag_adcFlags_of_ne (hN : f ≠ .N) (hZ : f ≠ .Z) (hC : f ≠ .C) (hV : f ≠ .V)
    (a m p : Byte) : getFlag (adcFlags a m p).p f = getFlag p f := by
  rw [adcFlags, getFlag_setNZ_of_ne hN hZ, getFlag_putFlag_of_ne hV, getFlag_putFlag_of_ne hC]

theorem getFlag_sbcFlags_of_ne (hN : f ≠ .N) (hZ : f ≠ .Z) (hC : f ≠ .C) (hV : f ≠ .V)
    (a m p : Byte) : getFlag (sbcFlags a m p).p f = getFlag p f := by
  rw [sbcFlags, getFlag_setNZ_of_ne hN hZ, getFlag_putFlag_of_ne hV, getFlag_putFlag_of_ne hC]

/-- The operand's read writes no flag. -/
theorem onOperand_flag {g : Byte → State → State} (hg : ∀ m r, (g m r).flag f = r.flag f)
    (i : Instr) (s : State) : (onOperand i g s).flag f = s.flag f := by
  simp [onOperand, hg]

/-- P after a read-modify-write is that of the operation on some byte. -/
theorem modify_p (o : Operand) (g : Byte → Byte → ModifyResult) (s : State) :
    ∃ v, (modify o g s).p = (g v s.p).p := by
  cases o with
  | acc | imp => exact ⟨s.a, rfl⟩
  | _ => exact ⟨s.byteAt s.ea, rfl⟩

/-- A read-modify-write keeps a flag that its operation on bytes keeps. -/
theorem modify_flag {g : Byte → Byte → ModifyResult}
    (hg : ∀ v p, getFlag (g v p).p f = getFlag p f) (o : Operand) (s : State) :
    (modify o g s).flag f = s.flag f := by
  obtain ⟨v, hv⟩ := modify_p o g s
  rw [State.flag, hv, hg, State.flag]

/-- A flag that a mnemonic writes is not one it leaves alone. -/
theorem flag_ne_of_writer {m : Mnemonic} (h : m ∉ flagWriters f) {g : Flag}
    (hg : m ∈ flagWriters g) : f ≠ g := by
  rintro rfl
  exact h hg

/-- A flag left alone by a mnemonic that runs `SetNZ` or `Compare` is neither N nor Z (R20). -/
theorem flag_ne_of_nz {m : Mnemonic} (h : m ∉ flagWriters f) (hm : m ∈ nzMnemonics) :
    f ≠ .N ∧ f ≠ .Z :=
  ⟨flag_ne_of_writer h (List.mem_append_left _ hm), flag_ne_of_writer h (List.mem_append_left _ hm)⟩

end

/-- The semantics leave alone every flag R20 to R27 do not name for the mnemonic. -/
theorem semantics_flag {i : Instr} {f : Flag} (h : i.mnemonic ∉ flagWriters f) (s : State) :
    (semantics i s).flag f = s.flag f := by
  have other {g : Flag} := flag_ne_of_writer h (g := g)
  have nz := flag_ne_of_nz h
  rw [semantics]
  cases hm : i.mnemonic with
  | STA | STX | STY | TXS | PHA | PHP | JMP | JSR | RTS | NOP | ILLEGAL =>
    simp [callSubroutine, returnFromSubroutine]
  | BCC | BCS | BEQ | BNE | BMI | BPL | BVC | BVS =>
    cases ht : branchTaken i s <;> simp [branchOrStay, ht]
  | TAX | TAY | TXA | TYA | TSX | INX | INY | DEX | DEY | PLA =>
    obtain ⟨hN, hZ⟩ := nz (by rw [hm]; decide)
    simp [pullA, State.flag, hN, hZ]
  | LDA | LDX | LDY | AND | ORA | EOR =>
    obtain ⟨hN, hZ⟩ := nz (by rw [hm]; decide)
    refine onOperand_flag (fun m r => ?_) i s
    exact getFlag_setNZ_of_ne hN hZ r.p _
  | CMP | CPX | CPY =>
    obtain ⟨hN, hZ⟩ := nz (by rw [hm]; decide)
    have hC : f ≠ .C := other (by rw [hm]; decide)
    refine onOperand_flag (fun m r => ?_) i s
    exact getFlag_compareFlags_of_ne hN hZ hC _ m r.p
  | ADC =>
    obtain ⟨hN, hZ⟩ := nz (by rw [hm]; decide)
    have hC : f ≠ .C := other (by rw [hm]; decide)
    have hV : f ≠ .V := other (by rw [hm]; decide)
    refine onOperand_flag (fun m r => ?_) i s
    exact getFlag_adcFlags_of_ne hN hZ hC hV r.a m r.p
  | SBC =>
    obtain ⟨hN, hZ⟩ := nz (by rw [hm]; decide)
    have hC : f ≠ .C := other (by rw [hm]; decide)
    have hV : f ≠ .V := other (by rw [hm]; decide)
    refine onOperand_flag (fun m r => ?_) i s
    exact getFlag_sbcFlags_of_ne hN hZ hC hV r.a m r.p
  | BIT =>
    have hN : f ≠ .N := other (by rw [hm]; decide)
    have hZ : f ≠ .Z := other (by rw [hm]; decide)
    have hV : f ≠ .V := other (by rw [hm]; decide)
    refine onOperand_flag (fun m r => ?_) i s
    exact getFlag_bitFlags_of_ne hN hZ hV r.a m r.p
  | INC | DEC =>
    obtain ⟨hN, hZ⟩ := nz (by rw [hm]; decide)
    refine modify_flag (fun v p => ?_) _ s
    exact getFlag_setNZ_of_ne hN hZ p _
  | ASL | LSR | ROL | ROR =>
    obtain ⟨hN, hZ⟩ := nz (by rw [hm]; decide)
    have hC : f ≠ .C := other (by rw [hm]; decide)
    refine modify_flag (fun v p => ?_) _ s
    exact (getFlag_setNZ_of_ne hN hZ _ _).trans (getFlag_putFlag_of_ne hC p _)
  | CLC | SEC | CLI | SEI | CLD | SED | CLV =>
    exact getFlag_putFlag_of_ne (other (by rw [hm]; decide)) s.p _
  | BRK =>
    have hI : f ≠ .I := other (by rw [hm]; decide)
    have hU : f ≠ .U := other (by rw [hm]; decide)
    rw [softwareBreak, enter_flag, getFlag_putFlag_of_ne hU, getFlag_putFlag_of_ne hI]
    rfl
  | PLP | RTI => exact absurd (by rw [hm]; cases f <;> decide) h

/-- Settles O21: neither the resolver nor the cycle count writes a flag, and the semantics write only
the ones named. -/
theorem flagWriters_complete : Obligations.FlagWriters := by
  intro f i s t ht hw
  rw [eq_of_exec ht, State.setPending_flag, semantics_flag hw, resolve_flag]

/-! ### PC (R17) -/

theorem modify_pc (o : Operand) (f : Byte → Byte → ModifyResult) (s : State) :
    (modify o f s).pc = s.pc := by
  cases o <;> rfl

/-- The semantics of a branch not taken, and of every instruction that is no jump, call, return or
BRK, leave PC as the resolver set it. -/
theorem semantics_pc {i : Instr} (h : i.mnemonic ∉ [Mnemonic.JMP, .JSR, .RTS, .RTI, .BRK]) {s : State}
    (ht : branchTaken i s = false) : (semantics i s).pc = s.pc := by
  rw [semantics]
  cases hm : i.mnemonic with
  | JMP | JSR | RTS | RTI | BRK => exact absurd (by rw [hm]; decide) h
  | BCC | BCS | BEQ | BNE | BMI | BPL | BVC | BVS => simp [branchOrStay, ht]
  | ASL | LSR | ROL | ROR | INC | DEC => exact modify_pc _ _ s
  | _ =>
    simp [onOperand, loadA, loadX, loadY, addToA, subFromA, compareWith, andA, orA, eorA, bitTest,
      pullA, pullP]

/-- Settles O23: the resolver puts PC at the next sequential instruction, and a branch that costs no
extra cycle was not taken. -/
theorem pcWriters : Obligations.PcWriters := by
  intro i s t ht hm hb
  have hstay : branchTaken i (resolve i s) = false := by
    rw [branchTaken_resolve, branchTaken_of_branchCycles hb]
  rw [eq_of_exec ht, State.setPending_pc, semantics_pc hm hstay, resolve_pc, nextPc]

/-! ### What an instruction keeps of the invariant (R39) -/

/-- A read-modify-write keeps the canonical form. -/
theorem modify_wf (o : Operand) (f : Byte → Byte → ModifyResult) {s : State}
    (h : s.mem.wf = true) : (modify o f s).mem.wf = true := by
  cases o with
  | acc | imp => exact h
  | _ => exact Bus.store_wf _ _ _ _ h

/-- The semantics keep the canonical form. -/
theorem semantics_wf (i : Instr) {s : State} (h : s.mem.wf = true) :
    (semantics i s).mem.wf = true := by
  rw [semantics]
  cases i.mnemonic with
  | STA | STX | STY => exact Bus.store_wf _ _ _ _ h
  | ASL | LSR | ROL | ROR | INC | DEC => exact modify_wf _ _ h
  | PHA | PHP => exact push_wf _ _ h
  | JSR => exact pushWord_wf _ _ h
  | BRK => exact enter_wf _ _ _ h
  | BCC | BCS | BEQ | BNE | BMI | BPL | BVC | BVS =>
    cases ht : branchTaken i s <;> simpa [branchOrStay, ht] using h
  | _ =>
    simpa [onOperand, loadA, loadX, loadY, addToA, subFromA, compareWith, andA, orA, eorA, bitTest,
      pullA, pullP, returnFromSubroutine] using h

/-- U stays 1: of its three writers BRK sets it, and PLP and RTI load P with it forced (R22, D3). -/
theorem semantics_flag_U (i : Instr) {s : State} (h : s.flag .U = true) :
    (semantics i s).flag .U = true := by
  by_cases hw : i.mnemonic ∈ flagWriters .U
  · rw [semantics]
    simp only [flagWriters, List.mem_cons, List.not_mem_nil, or_false] at hw
    rcases hw with hm | hm | hm
    · simp [hm, softwareBreak]
    · simp [hm, pullP]
    · simp [hm]
  · rw [semantics_flag hw, h]

/-- What an instruction leaves of the invariant: the canonical form, U, and at most 9 cycles. -/
theorem exec_keeps_inv {i : Instr} {s t : State} (h : exec i s = .next t) (hw : s.mem.wf = true)
    (hU : s.flag .U = true) : t.mem.wf = true ∧ t.pending ≤ 9 ∧ t.flag .U = true := by
  rw [eq_of_exec h]
  exact ⟨semantics_wf i (by simpa using hw), cyclesOf_le i s, semantics_flag_U i (by simpa using hU)⟩

/-! ### The invariant over the host's calls (R39, R40) -/

/-- A fetch does nothing to the state but record reads. -/
theorem fetch_snd (s : State) : ∃ l, (fetch s).2 = s.noteReads l := by
  obtain ⟨i, rest, hd⟩ := fetchWindow_decodes s
  exact ⟨_, congrArg Prod.snd (fetch_eq s i rest hd)⟩

/-- Settles O16: counting down takes `pending` lower; a fetch call runs one instruction, whose at most
9 cycles it lowers by one. -/
theorem stepKeepsInvariant : Obligations.StepKeepsInvariant := by
  rintro s t ⟨hw, hp, hU⟩ h
  rcases step_cases h with ⟨-, -, rfl⟩ | ⟨hpow, -, u, hu, rfl⟩
  · exact ⟨hw, (Nat.sub_le s.pending 1).trans hp, hU⟩
  · obtain ⟨l, hl⟩ := fetch_snd s.beginCall
    rw [hl] at hu
    obtain ⟨hw', hp', hU'⟩ := exec_keeps_inv hu (by simpa using hw) (by simpa using hU hpow)
    exact ⟨hw', Nat.sub_le_of_le_add hp', fun _ => hU'⟩

/-- A reset meets the invariant, whatever came before it, if memory is in canonical form (R172). -/
theorem resetCall_inv {s : State} (h : s.mem.wf = true) : (resetCall s).Inv :=
  ⟨h, Nat.le_refl 8, fun _ => show getFlag 0x24 .U = true from rfl⟩

/-- Settles O15: `State.reset` by its fields, and every reset call by `resetCall_inv`. -/
theorem resetMeetsInvariant : Obligations.ResetMeetsInvariant :=
  ⟨⟨rfl, Nat.le_refl 8, fun _ => rfl⟩, fun _ => resetCall_inv⟩

/-- An admitted request finds a powered core at a boundary and gets its answer (R159). -/
theorem admitted_cases {s answer t : State} (h : admitted s answer = .next t) :
    s.powered = true ∧ s.pending = 0 ∧ t = answer := by
  unfold admitted at h
  split at h
  · split at h
    · exact ⟨‹_›, ‹_›, (Host.Outcome.next.inj h).symm⟩
    · cases h
  · cases h

/-- Interrupt entry keeps the invariant: three pushes, U set, 7 cycles (R160, R161). -/
theorem interruptEntry_inv (vec : Addr) {s : State} (h : s.Inv) : (interruptEntry vec s).Inv := by
  obtain ⟨hw, -, -⟩ := h
  refine ⟨enter_wf false vec s.beginCall hw, ?_, fun _ => ?_⟩
  · simp [interruptEntry]
  · simp [interruptEntry]

/-- Settles O17: a masked IRQ only begins a call, and the other answers are a reset, an entry or a
write. -/
theorem hostActionsKeepInvariant : Obligations.HostActionsKeepInvariant := by
  intro c s t hc hs h
  have ⟨hw, hp, hU⟩ := hs
  cases c with
  | step => exact absurd rfl hc
  | reset =>
    obtain rfl := Host.Outcome.next.inj h
    exact resetCall_inv hw
  | irq =>
    obtain ⟨-, -, rfl⟩ := admitted_cases h
    cases s.flag .I with
    | false => exact interruptEntry_inv _ hs
    | true => exact ⟨hw, hp, hU⟩
  | nmi =>
    obtain ⟨-, -, rfl⟩ := admitted_cases h
    exact interruptEntry_inv _ hs
  | write a v =>
    obtain rfl := Host.Outcome.next.inj h
    exact ⟨Memory.wf_write _ a v hw, hp, hU⟩

end Sys2Proof.Machine
end

section
/-! Family `20_memory.md` (R41 to R55): canonical memories, the bus callbacks and the stack
primitives; and which bus accesses every call makes, from which follow the record's consistency and which memory
an instruction can change. -/

namespace Sys2Proof.Machine

/-! ### Canonical memories (R42, R43; log 1) -/

theorem Memory.wfFrom_cons {n k : Nat} {v : Byte} {t : Memory} :
    Memory.wfFrom n ((k, v) :: t) = true ↔
      n ≤ k ∧ k < Config.memorySize ∧ v ≠ unlistedByte ∧ Memory.wfFrom (k + 1) t = true := by
  simp [Memory.wfFrom, and_assoc]

@[simp] theorem Memory.read_cons_same (k : Nat) (v : Byte) (t : Memory) :
    Memory.read ((k, v) :: t) k = v := by
  simp [Memory.read]

theorem Memory.read_cons_of_ne {k a : Nat} (h : k ≠ a) (v : Byte) (t : Memory) :
    Memory.read ((k, v) :: t) a = Memory.read t a := by
  simp [Memory.read, h]

/-- An address that does not read as an unlisted one is not below the part of a memory it is in. -/
theorem Memory.le_of_read_ne {m : Memory} {n a : Nat} (h : Memory.wfFrom n m = true)
    (ha : m.read a ≠ unlistedByte) : n ≤ a :=
  Nat.le_of_not_lt fun hlt => ha (Memory.read_of_lt_wfFrom m n a h hlt)

/-- A memory that reads as a canonical one lists the first address of that one. -/
theorem Memory.read_head_ne {n k : Nat} {v : Byte} {t m : Memory}
    (hw : Memory.wfFrom n ((k, v) :: t) = true)
    (h : ∀ a, a < Config.memorySize → Memory.read ((k, v) :: t) a = m.read a) :
    m.read k ≠ unlistedByte := by
  obtain ⟨-, hk, hv, -⟩ := Memory.wfFrom_cons.1 hw
  rwa [← h k hk, Memory.read_cons_same]

/-- When the memories of two canonical forms read the same, the first address of either is not
below that of the other. -/
theorem Memory.head_le_head {n n' k k' : Nat} {v v' : Byte} {t t' : Memory}
    (hw : Memory.wfFrom n ((k, v) :: t) = true) (hw' : Memory.wfFrom n' ((k', v') :: t') = true)
    (h : ∀ a, a < Config.memorySize →
      Memory.read ((k, v) :: t) a = Memory.read ((k', v') :: t') a) : k' ≤ k := by
  obtain ⟨-, hrest'⟩ := Memory.wfFrom_cons.1 hw'
  exact Memory.le_of_read_ne (Memory.wfFrom_cons.2 ⟨Nat.le_refl k', hrest'⟩)
    (Memory.read_head_ne hw h)

/-- Canonical parts of memories, whatever their lower bounds, are equal if they read the same. -/
theorem Memory.eq_of_read_eq {m m' : Memory} {n n' : Nat} (hw : Memory.wfFrom n m = true)
    (hw' : Memory.wfFrom n' m' = true)
    (h : ∀ a, a < Config.memorySize → m.read a = m'.read a) : m = m' := by
  induction m generalizing m' n n' with
  | nil =>
    cases m' with
    | nil => rfl
    | cons c t => exact absurd rfl (Memory.read_head_ne hw' fun a ha => (h a ha).symm)
  | cons c t ih =>
    cases m' with
    | nil => exact absurd rfl (Memory.read_head_ne hw h)
    | cons c' t' =>
      obtain ⟨k, v⟩ := c
      obtain ⟨k', v'⟩ := c'
      obtain rfl : k = k' :=
        Nat.le_antisymm (Memory.head_le_head hw' hw fun a ha => (h a ha).symm)
          (Memory.head_le_head hw hw' h)
      obtain ⟨-, hk, -, ht⟩ := Memory.wfFrom_cons.1 hw
      obtain ⟨-, -, -, ht'⟩ := Memory.wfFrom_cons.1 hw'
      obtain rfl : v = v' := by simpa using h k hk
      have htails : ∀ a, a < Config.memorySize → Memory.read t a = Memory.read t' a := by
        intro a ha
        by_cases hka : k = a
        · rw [Memory.read_of_lt_wfFrom t (k + 1) a ht (by omega),
            Memory.read_of_lt_wfFrom t' (k + 1) a ht' (by omega)]
        · simpa only [Memory.read_cons_of_ne hka] using h a ha
      rw [ih ht ht' htails]

/-- Settles O18: the first entries agree, and so on along the two lists. -/
theorem memoryDeterminedByBytes : Obligations.MemoryDeterminedByBytes :=
  fun _ _ hm hn h => Memory.eq_of_read_eq hm hn h

/-! ### The two callbacks by kind of place (R41, R43; log 16) -/

section
variable {b : Bus} {a : Addr}

theorem Bus.reply_of_ram {c : Addr} (h : b.place a = .ram c) (m : Memory) (l : List BusAccess) :
    b.reply m l a = m.read c.toNat := by
  simp [Bus.reply, h]

theorem Bus.reply_of_rom {c : Addr} (h : b.place a = .rom c) (m : Memory) (l : List BusAccess) :
    b.reply m l a = m.read c.toNat := by
  simp [Bus.reply, h]

theorem Bus.reply_of_device {id : Nat} {x : Addr} (h : b.place a = .device id x) (m : Memory)
    (l : List BusAccess) : b.reply m l a = Config.deviceRead id l x := by
  simp [Bus.reply, h]

theorem Bus.store_of_ram {c : Addr} (h : b.place a = .ram c) (m : Memory) (v : Byte) :
    b.store m a v = m.write c.toNat v := by
  simp [Bus.store, h]

theorem Bus.store_of_rom {c : Addr} (h : b.place a = .rom c) (m : Memory) (v : Byte) :
    b.store m a v = m := by
  simp [Bus.store, h]

theorem Bus.store_of_device {id : Nat} {x : Addr} (h : b.place a = .device id x) (m : Memory)
    (v : Byte) : b.store m a v = m := by
  simp [Bus.store, h]

end

/-- Settles O59: by the kind of place that serves the address. -/
theorem busAnswersReads : Obligations.BusAnswersReads := by
  refine ⟨Bus.place_ram, fun s a v => ⟨rfl, rfl, rfl, fun c hc hw => ⟨?_, fun b hb => ?_,
    fun k hk => ?_⟩, fun c hc => ?_, fun id x hx => ?_⟩⟩
  · exact Bus.reply_of_ram hc _ _
  · calc (memRead b (memWrite a v s)).1
        = (s.bus.store s.mem a v).read c.toNat := Bus.reply_of_ram hb _ _
      _ = (s.mem.write c.toNat v).read c.toNat := by rw [Bus.store_of_ram hc]
      _ = v := Memory.read_write_same _ _ _ hw
  · refine Bus.read_store_of_ne s.bus s.mem a k v ?_
    rw [hc]
    rintro ⟨⟩
    exact hk rfl
  · exact ⟨Bus.reply_of_rom hc _ _, Bus.store_of_rom hc _ _⟩
  · exact ⟨Bus.reply_of_device hx _ _, Bus.store_of_device hx _ _⟩

/-! ### `Push` and `Pull` (R50, R51) -/

theorem push_frame (v : Byte) (s : State) :
    Frame s (push v s) [.SP] [] [stackAddr s.sp] where
  regs r hr := by simp [push, show r ≠ .SP by simpa using hr]
  flags _ _ := rfl
  memory := push_keepsMemory v s
  bus := rfl
  powered := rfl
  traceEnabled := rfl

theorem pull_frame (s : State) : Frame s (pull s).2 [.SP] [] [] where
  regs r hr := by simp [pull, show r ≠ .SP by simpa using hr]
  flags _ _ := rfl
  memory := .of_mem rfl rfl
  bus := rfl
  powered := rfl
  traceEnabled := rfl

/-- A pull after a push leaves SP where it was, the wrap at 0x00 included (R51). -/
theorem pull_push_sp (v : Byte) (s : State) : (pull (push v s)).2.sp = s.sp := by
  simp

/-- On the default bus a pull after a push returns the byte pushed (R51). -/
theorem pull_push_fst (v : Byte) (s : State) (hb : s.bus = Bus.ram) (h : s.mem.wf = true) :
    (pull (push v s)).1 = v := by
  rw [pull_fst, push_sp, BitVec.sub_add_cancel, push_byteAt_same v s hb h]

/-- Settles O19: SP + 0x0100 is the stack address, and each primitive makes one access there. -/
theorem stackPrimitives : Obligations.StackPrimitives := by
  simp only [Obligations.StackPrimitives, ← stackAddr_eq]
  refine ⟨fun v s hw => ⟨rfl, push_frame v s, rfl, rfl, pull_push_sp v s, fun hb => ?_⟩,
    fun s => ?_⟩
  · exact ⟨push_byteAt_same v s hb hw, pull_push_fst v s hb hw⟩
  · exact ⟨rfl, rfl, pull_frame s, rfl, rfl⟩

/-! ### Replaying a record of accesses (R41, R43, R47) -/

/-- A replay of one list of accesses and then of another is a replay of both. -/
theorem Replays.append {b : Bus} {l l' h : List BusAccess} {m m' m'' : Memory}
    (hl : Replays b h m l m') (hl' : Replays b (l.reverse ++ h) m' l' m'') :
    Replays b h m (l ++ l') m'' := by
  induction l generalizing h m with
  | nil =>
    obtain rfl : m' = m := hl
    exact hl'
  | cons c l ih =>
    rw [List.reverse_cons, List.append_assoc] at hl'
    cases c with
    | read a v => exact ⟨hl.1, ih hl.2 hl'⟩
    | write a v => exact ih hl hl'

/-- A cell that is the RAM of no address written keeps its byte through a replay. -/
theorem Replays.read_of_not_written {b : Bus} {l h : List BusAccess} {m m' : Memory}
    (hl : Replays b h m l m') {k : Addr}
    (hk : ∀ a, (true, a) ∈ l.map BusAccess.shape → b.place a ≠ .ram k) :
    m'.read k.toNat = m.read k.toNat := by
  induction l generalizing h m with
  | nil =>
    obtain rfl : m' = m := hl
    rfl
  | cons c l ih =>
    have htail : ∀ a, (true, a) ∈ l.map BusAccess.shape → b.place a ≠ .ram k :=
      fun a ha => hk a (List.mem_cons_of_mem _ ha)
    cases c with
    | read a v => exact ih hl.2 htail
    | write a v =>
      have hhead : b.place a ≠ .ram k := hk a List.mem_cons_self
      rw [ih hl htail, Bus.read_store_of_ne b m a k v hhead]

/-! ### What goes over the bus from one state to another -/

/-- The part of a state that a bus access reads or changes (R41, R43). -/
structure BusSide where
  bus      : Bus
  mem      : Memory
  accesses : List BusAccess
  past     : List BusAccess

/-- Reads that part of a state. -/
def State.busSide (s : State) : BusSide := ⟨s.bus, s.mem, s.accesses, s.past⟩

@[simp] theorem State.setA_busSide (s : State) (v : Byte) : (s.setA v).busSide = s.busSide := rfl
@[simp] theorem State.setX_busSide (s : State) (v : Byte) : (s.setX v).busSide = s.busSide := rfl
@[simp] theorem State.setY_busSide (s : State) (v : Byte) : (s.setY v).busSide = s.busSide := rfl
@[simp] theorem State.setSp_busSide (s : State) (v : Byte) : (s.setSp v).busSide = s.busSide := rfl
@[simp] theorem State.setPc_busSide (s : State) (v : Addr) : (s.setPc v).busSide = s.busSide := rfl
@[simp] theorem State.setP_busSide (s : State) (v : Byte) : (s.setP v).busSide = s.busSide := rfl
@[simp] theorem State.setPending_busSide (s : State) (n : Nat) :
    (s.setPending n).busSide = s.busSide := rfl

/-- Going from `s` to `t` made exactly the bus accesses `l`, in that order: the bus answered each
read, and memory changed by the writes alone. -/
structure Performs (s : State) (l : List (Bool × Addr)) (t : State) : Prop where
  bus    : t.bus = s.bus
  past   : t.past = s.past
  record : ∃ done, t.accesses = s.accesses ++ done ∧ done.map BusAccess.shape = l ∧
    Replays s.bus s.history s.mem done t.mem

/-- Only the bus side of the last state matters. -/
theorem Performs.congr {s t u : State} {l : List (Bool × Addr)} (h : Performs s l t)
    (hu : u.busSide = t.busSide) : Performs s l u := by
  obtain ⟨hb, hm, ha, hp⟩ := BusSide.mk.inj hu
  obtain ⟨hbus, hpast, hrecord⟩ := h
  exact ⟨hb.trans hbus, hp.trans hpast, by rwa [ha, hm]⟩

theorem Performs.refl (s : State) : Performs s [] s :=
  ⟨rfl, rfl, [], (List.append_nil _).symm, rfl, rfl⟩

/-- What writes registers only makes no access. -/
theorem Performs.of_busSide {s t : State} (h : t.busSide = s.busSide) : Performs s [] t :=
  (Performs.refl s).congr h

theorem Performs.trans {s t u : State} {l l' : List (Bool × Addr)} (h : Performs s l t)
    (h' : Performs t l' u) : Performs s (l ++ l') u := by
  obtain ⟨hbus, hpast, done, hacc, hshape, hrep⟩ := h
  obtain ⟨hbus', hpast', done', hacc', hshape', hrep'⟩ := h'
  have hhist : t.history = done.reverse ++ s.history := by
    simp [State.history, hacc, hpast]
  refine ⟨hbus'.trans hbus, hpast'.trans hpast, done ++ done', ?_, ?_, ?_⟩
  · rw [hacc', hacc, List.append_assoc]
  · rw [List.map_append, hshape, hshape']
  · rw [hbus, hhist] at hrep'
    exact hrep.append hrep'

/-- The record of a host call begins empty: it holds just the accesses performed, and replays from the
memory the call began with. -/
theorem Performs.record_of_call {s t : State} {l : List (Bool × Addr)}
    (h : Performs s.beginCall l t) :
    t.accesses.map BusAccess.shape = l ∧
      Replays s.bus s.beginCall.history s.mem t.accesses t.mem := by
  obtain ⟨-, -, done, hacc, hshape, hrep⟩ := h
  obtain rfl : t.accesses = done := hacc
  exact ⟨hshape, hrep⟩

/-- Memory changes at most behind the addresses written. -/
theorem Performs.keepsMemory {s t : State} {l : List (Bool × Addr)} {as : List Addr}
    (h : Performs s l t) (hw : ∀ a, (true, a) ∈ l → a ∈ as) : KeepsMemory s t as := by
  obtain ⟨hbus, -, done, -, rfl, hrep⟩ := h
  exact .of_cells hbus fun k hk => hrep.read_of_not_written fun a ha => hk a (hw a ha)

/-! ### The accesses of each operation -/

theorem noteRead_performs (a : Addr) (s : State) : Performs s [(false, a)] (s.noteRead a) :=
  ⟨rfl, rfl, [.read a (s.byteAt a)], rfl, rfl, rfl, rfl⟩

theorem noteReads_performs (l : List Addr) (s : State) :
    Performs s (l.map (false, ·)) (s.noteReads l) := by
  induction l generalizing s with
  | nil => exact Performs.refl s
  | cons a l ih => exact (noteRead_performs a s).trans (ih (s.noteRead a))

theorem memWrite_performs (a : Addr) (v : Byte) (s : State) :
    Performs s [(true, a)] (memWrite a v s) :=
  ⟨rfl, rfl, [.write a v], rfl, rfl, rfl⟩

theorem push_performs (v : Byte) (s : State) : Performs s [(true, stackAddr s.sp)] (push v s) :=
  (memWrite_performs (stackAddr s.sp) v s).congr rfl

theorem pushWord_performs (w : Addr) (s : State) :
    Performs s [(true, stackAddr s.sp), (true, stackAddr (s.sp - 1))] (pushWord w s) :=
  (push_performs (hiByte w) s).trans (push_performs (loByte w) (push (hiByte w) s))

/-- Interrupt entry pushes three bytes and reads the vector, low byte first (R158). -/
theorem enter_performs (b : Bool) (vec : Addr) (s : State) :
    Performs s [(true, stackAddr s.sp), (true, stackAddr (s.sp - 1)), (true, stackAddr (s.sp - 2)),
      (false, vec), (false, vec + 1)] (enter b vec s) := by
  have hsp : s.sp - 2 = (pushWord s.pc s).sp := by rw [pushWord_sp]; bv_omega
  have hpushes := (pushWord_performs s.pc s).trans
    (push_performs (pushedP s.p b) (pushWord s.pc s))
  rw [hsp]
  refine (hpushes.trans (noteReads_performs [vec, vec + 1] _)).congr ?_
  simp [State.busSide]

theorem pull_performs (s : State) : Performs s [(false, stackAddr (s.sp + 1))] (pull s).2 :=
  (noteRead_performs (stackAddr (s.sp + 1)) s).congr rfl

theorem pullWord_performs (s : State) :
    Performs s [(false, stackAddr (s.sp + 1)), (false, stackAddr (s.sp + 2))] (pullWord s).2 := by
  have hsp : s.sp + 2 = (pull s).2.sp + 1 := by rw [pull_sp]; bv_omega
  rw [hsp]
  exact (pull_performs s).trans (pull_performs (pull s).2)

theorem returnFromInterrupt_performs (s : State) :
    Performs s [(false, stackAddr (s.sp + 1)), (false, stackAddr (s.sp + 2)),
      (false, stackAddr (s.sp + 3))] (returnFromInterrupt s) := by
  have hsp2 : s.sp + 2 = s.sp + 1 + 1 := by bv_omega
  have hsp3 : s.sp + 3 = s.sp + 1 + 2 := by bv_omega
  have hword := (pullWord_performs ((pull s).2.setP (loadP (pull s).1))).congr
    (State.setPc_busSide _ (pullWord ((pull s).2.setP (loadP (pull s).1))).1)
  rw [hsp2, hsp3]
  exact ((pull_performs s).congr (State.setP_busSide _ _)).trans hword

theorem callSubroutine_performs (s : State) :
    Performs s [(true, stackAddr s.sp), (true, stackAddr (s.sp - 1))] (callSubroutine s) :=
  (pushWord_performs (s.pc - 1) s).congr (State.setPc_busSide _ _)

theorem returnFromSubroutine_performs (s : State) :
    Performs s [(false, stackAddr (s.sp + 1)), (false, stackAddr (s.sp + 2))]
      (returnFromSubroutine s) :=
  (pullWord_performs s).congr (State.setPc_busSide _ _)

theorem softwareBreak_performs (s : State) :
    Performs s [(true, stackAddr s.sp), (true, stackAddr (s.sp - 1)), (true, stackAddr (s.sp - 2)),
      (false, Config.irqVector), (false, Config.irqVector + 1)] (softwareBreak s) :=
  (Performs.of_busSide (State.setPc_busSide s (s.pc + 1))).trans
    (enter_performs true Config.irqVector (s.setPc (s.pc + 1)))

theorem pullA_performs (s : State) : Performs s [(false, stackAddr (s.sp + 1))] (pullA s) :=
  (pull_performs s).congr (by simp [pullA])

theorem pullP_performs (s : State) : Performs s [(false, stackAddr (s.sp + 1))] (pullP s) :=
  (pull_performs s).congr (by simp [pullP])

/-! ### The accesses of an instruction (R47, R48, R67, R81) -/

/-- The operand form is that of the instruction's mode (R57, R62). -/
theorem operand_mode (i : Instr) : i.operand.mode = i.mode := by
  cases i <;> rfl

/-- The resolver makes the pointer reads and no other access (R81). -/
theorem resolve_performs (i : Instr) (s : State) :
    Performs s ((pointerReads i.operand s).map (false, ·)) (resolve i s) :=
  (noteReads_performs (pointerReads i.operand s) s).congr rfl

/-- A reading instruction reads its operand, unless it is immediate, and works on registers (R67). -/
theorem onOperand_performs {f : Byte → State → State}
    (hf : ∀ m r, (f m r).busSide = r.busSide) (i : Instr) (s : State) :
    Performs s (if i.mode = .IMM then [] else [(false, s.ea)]) (onOperand i f s) := by
  have hread := noteReads_performs (if i.operand.mode = .IMM then [] else [s.ea]) s
  rw [← operandByte_snd, operand_mode, apply_ite (List.map (false, ·))] at hread
  exact hread.congr (hf _ _)

/-- No read-modify-write has the implied mode (R48, R62). -/
theorem mode_ne_IMP_of_modify {i : Instr} (h : i.mnemonic ∈ modifyMnemonics) : i.mode ≠ .IMP := by
  have table : (modifyMnemonics.contains i.mnemonic && i.mode == .IMP) = false := by
    cases i <;> rfl
  simpa [h] using table

/-- A read-modify-write reads and writes its operand once each, and makes no access on A (R48). -/
theorem modify_performs {i : Instr} (h : i.mnemonic ∈ modifyMnemonics)
    (f : Byte → Byte → ModifyResult) (s : State) :
    Performs s (if i.mode = .ACC then [] else [(false, s.ea), (true, s.ea)])
      (modify i.operand f s) := by
  have himp := mode_ne_IMP_of_modify h
  rw [← operand_mode] at himp ⊢
  split
  next hacc =>
    refine Performs.of_busSide ?_
    cases ho : i.operand with
    | acc => rfl
    | _ => simp [ho, Operand.mode] at hacc
  next hacc =>
    rw [modify_mem i.operand f s hacc himp]
    exact ((noteReads_performs [s.ea] s).trans (memWrite_performs s.ea _ _)).congr rfl

/-- A branch makes no access (R130). -/
theorem branchOrStay_performs (i : Instr) (s : State) : Performs s [] (branchOrStay i s) := by
  refine Performs.of_busSide ?_
  cases ht : branchTaken i s <;> simp [branchOrStay, ht, State.busSide]

/-- The accesses of a reading instruction after the resolver (R67). -/
theorem semanticAccesses_of_read {i : Instr} (h : i.mnemonic ∈ readMnemonics) (s : State) :
    semanticAccesses i s =
      if i.mode = .IMM then [] else [(false, effectiveAddress i.operand s)] :=
  if_pos h

/-- The accesses of a read-modify-write after the resolver (R48). -/
theorem semanticAccesses_of_modify {i : Instr} (h : i.mnemonic ∈ modifyMnemonics) (s : State) :
    semanticAccesses i s =
      if i.mode = .ACC then []
      else [(false, effectiveAddress i.operand s), (true, effectiveAddress i.operand s)] := by
  have disjoint : ∀ m ∈ modifyMnemonics, m ∉ readMnemonics := by decide
  exact (if_neg (disjoint _ h)).trans (if_pos h)

/-- An instruction that reads no operand, pulls nothing and is not BRK makes its stores only. -/
theorem semanticAccesses_of_store {i : Instr}
    (h : i.mnemonic ∉
      readMnemonics ++ modifyMnemonics ++ [Mnemonic.PLA, .PLP, .RTS, .RTI, .BRK])
    (s : State) : semanticAccesses i s = (storeAddrs i s).map (true, ·) := by
  simp only [List.mem_append, not_or] at h
  obtain ⟨⟨hr, hm⟩, hp⟩ := h
  rw [semanticAccesses, if_neg hr, if_neg hm]
  split
  case h_6 => rfl
  all_goals simp_all

/-- From a state with the operand resolved, the semantics make the accesses the table names, in
order, and no others. -/
theorem semantics_performs {i : Instr} {s r : State} (hea : r.ea = effectiveAddress i.operand s)
    (hsp : r.sp = s.sp) : Performs r (semanticAccesses i s) (semantics i r) := by
  rw [semantics]
  cases hm : i.mnemonic with
  | LDA | LDX | LDY | ADC | SBC | CMP | CPX | CPY | AND | ORA | EOR | BIT =>
    rw [semanticAccesses_of_read (by rw [hm]; decide), ← hea]
    refine onOperand_performs (fun m r => ?_) i r
    simp [loadA, loadX, loadY, addToA, subFromA, compareWith, andA, orA, eorA, bitTest]
  | ASL | LSR | ROL | ROR | INC | DEC =>
    have hmod : i.mnemonic ∈ modifyMnemonics := by rw [hm]; decide
    rw [semanticAccesses_of_modify hmod, ← hea]
    exact modify_performs hmod _ r
  | STA | STX | STY =>
    rw [semanticAccesses_of_store (by rw [hm]; decide), storeAddrs, hm, ← hea]
    exact memWrite_performs _ _ r
  | PHA | PHP =>
    rw [semanticAccesses_of_store (by rw [hm]; decide), storeAddrs, hm, ← hsp]
    exact push_performs _ r
  | JSR =>
    rw [semanticAccesses_of_store (by rw [hm]; decide), storeAddrs, hm, ← hsp]
    exact callSubroutine_performs r
  | BRK =>
    rw [semanticAccesses, if_neg (by rw [hm]; decide), if_neg (by rw [hm]; decide), hm,
      storeAddrs, hm, ← hsp]
    exact softwareBreak_performs r
  | PLA =>
    rw [semanticAccesses, if_neg (by rw [hm]; decide), if_neg (by rw [hm]; decide), hm, ← hsp]
    exact pullA_performs r
  | PLP =>
    rw [semanticAccesses, if_neg (by rw [hm]; decide), if_neg (by rw [hm]; decide), hm, ← hsp]
    exact pullP_performs r
  | RTS =>
    rw [semanticAccesses, if_neg (by rw [hm]; decide), if_neg (by rw [hm]; decide), hm, ← hsp]
    exact returnFromSubroutine_performs r
  | RTI =>
    rw [semanticAccesses, if_neg (by rw [hm]; decide), if_neg (by rw [hm]; decide), hm, ← hsp]
    exact returnFromInterrupt_performs r
  | BCC | BCS | BEQ | BNE | BMI | BPL | BVC | BVS =>
    rw [semanticAccesses_of_store (by rw [hm]; decide), storeAddrs, hm]
    exact branchOrStay_performs i r
  | INX | INY | DEX | DEY | TAX | TAY | TXA | TYA | TSX | TXS
  | CLC | SEC | CLI | SEI | CLD | SED | CLV | JMP | NOP | ILLEGAL =>
    rw [semanticAccesses_of_store (by rw [hm]; decide), storeAddrs, hm]
    exact Performs.of_busSide (by simp)

/-- An instruction makes the pointer reads and then the accesses of its semantics. -/
theorem exec_performs {i : Instr} {s t : State} (h : exec i s = .next t) :
    Performs s ((pointerReads i.operand s).map (false, ·) ++ semanticAccesses i s) t := by
  rw [eq_of_exec h]
  exact ((resolve_performs i s).trans (semantics_performs rfl (resolve_sp i s))).congr rfl

/-- A read-modify-write stores to its effective address, and on A to none (R48). -/
theorem storeAddrs_of_modify {i : Instr} (h : i.mnemonic ∈ modifyMnemonics) (s : State) :
    storeAddrs i s = if i.mode = .ACC then [] else [effectiveAddress i.operand s] := by
  simp only [modifyMnemonics, List.mem_cons, List.not_mem_nil, or_false] at h
  rcases h with hm | hm | hm | hm | hm | hm <;> rw [storeAddrs, hm]

/-- The addresses an instruction writes are those it stores to. -/
theorem mem_storeAddrs_of_write {i : Instr} {s : State} {a : Addr}
    (h : (true, a) ∈ semanticAccesses i s) : a ∈ storeAddrs i s := by
  by_cases hr : i.mnemonic ∈ readMnemonics
  · rw [semanticAccesses_of_read hr] at h
    split at h <;> simp at h
  by_cases hm : i.mnemonic ∈ modifyMnemonics
  · rw [semanticAccesses_of_modify hm] at h
    rw [storeAddrs_of_modify hm]
    by_cases hacc : i.mode = .ACC
    · simp [hacc] at h
    · simpa [hacc] using h
  · rw [semanticAccesses, if_neg hr, if_neg hm] at h
    split at h
    case h_5 => simpa using h
    case h_6 => simpa using h
    all_goals simp at h

/-- Settles O22: an instruction writes only where it stores, and only a write changes memory. -/
theorem memoryWriters : Obligations.MemoryWriters := by
  intro i s t ht
  refine (exec_performs ht).keepsMemory fun a ha => ?_
  rcases List.mem_append.1 ha with hpointer | hsem
  · simp at hpointer
  · exact mem_storeAddrs_of_write hsem

/-! ### The accesses of a host call -/

/-- A fetch call runs the instruction at PC on the state its fetch leaves (R147). -/
theorem step_of_decode {s : State} {i : Instr} {rest : List Byte} (hp : s.powered = true)
    (h0 : s.pending = 0) (hd : decode s.fetchWindow = .ok i rest) :
    step s = mapNext (finishFetchCall s i) (exec i (s.afterFetch i)) := by
  have hf : fetch s.beginCall = (i, s.afterFetch i) :=
    fetch_eq s.beginCall i rest (by rwa [beginCall_fetchWindow])
  simp [step, hp, h0, fetchDecodeExecute, hf]

/-- A fetch call reads the instruction's own bytes and then makes the instruction's accesses. -/
theorem fetchCall_performs {s u : State} {i : Instr} (hu : exec i (s.afterFetch i) = .next u) :
    Performs s.beginCall ((instructionAddrs i s.pc ++ pointerReads i.operand (s.afterFetch i)).map
      (false, ·) ++ semanticAccesses i (s.afterFetch i)) (finishFetchCall s i u) := by
  rw [List.map_append, List.append_assoc]
  exact ((noteReads_performs (instructionAddrs i s.pc) s.beginCall).trans
    (exec_performs hu)).congr rfl

/-- Settles O14: the fetch reads the instruction's bytes, and `exec` makes the rest. -/
theorem busAccessesInOrder : Obligations.BusAccessesInOrder := by
  intro s i rest hp h0 hd
  have hu := exec_eq i (s.afterFetch i)
  refine ⟨_, ?_, (fetchCall_performs hu).record_of_call.1⟩
  rw [step_of_decode hp h0 hd, hu, mapNext]

/-- A `step` that answers makes some accesses: none while it counts down. -/
theorem step_performs {s t : State} (h : step s = .next t) : ∃ l, Performs s.beginCall l t := by
  rcases step_cases h with ⟨-, -, rfl⟩ | ⟨-, -, u, hu, rfl⟩
  · exact ⟨_, Performs.of_busSide rfl⟩
  · obtain ⟨l, hl⟩ := fetch_snd s.beginCall
    rw [hl] at hu
    exact ⟨_, ((noteReads_performs l s.beginCall).trans (exec_performs hu)).congr rfl⟩

/-- A reset reads its vector (R172). -/
theorem resetCall_performs (s : State) :
    Performs s.beginCall [(false, Config.resetVector), (false, Config.resetVector + 1)]
      (resetCall s) :=
  (noteReads_performs [Config.resetVector, Config.resetVector + 1] s.beginCall).congr rfl

theorem interruptEntry_performs (vec : Addr) (s : State) :
    Performs s.beginCall [(true, stackAddr s.sp), (true, stackAddr (s.sp - 1)),
      (true, stackAddr (s.sp - 2)), (false, vec), (false, vec + 1)] (interruptEntry vec s) :=
  (enter_performs false vec s.beginCall).congr (State.setPending_busSide _ 7)

/-- Every call of the core makes some accesses from the state it begins with; a masked IRQ makes
none. -/
theorem call_performs {c : HostAction} (hc : c ∈ [HostAction.step, .reset, .irq, .nmi])
    {s t : State} (h : call c s = .next t) : ∃ l, Performs s.beginCall l t := by
  cases c with
  | step => exact step_performs h
  | reset =>
    obtain rfl := Host.Outcome.next.inj h
    exact ⟨_, resetCall_performs s⟩
  | irq =>
    obtain ⟨-, -, rfl⟩ := admitted_cases h
    cases s.flag .I with
    | false => exact ⟨_, interruptEntry_performs _ s⟩
    | true => exact ⟨_, Performs.refl s.beginCall⟩
  | nmi =>
    obtain ⟨-, -, rfl⟩ := admitted_cases h
    exact ⟨_, interruptEntry_performs _ s⟩
  | write a v => simp at hc

/-! ### The construction arguments (R7, R37) -/

/-- An instruction keeps the two construction arguments. -/
theorem exec_keeps_parameters {i : Instr} {s t : State} (h : exec i s = .next t) :
    t.bus = s.bus ∧ t.traceEnabled = s.traceEnabled := by
  obtain ⟨u, hu, hc⟩ := exec_context i s
  obtain rfl := Host.Outcome.next.inj (h.symm.trans hu)
  simp only [State.context, InstrContext.mk.injEq, resolve_bus, resolve_traceEnabled] at hc
  obtain ⟨-, -, -, htrace, hbus, -⟩ := hc
  exact ⟨hbus, htrace⟩

/-- No call of the host changes them. -/
theorem call_keeps_parameters {c : HostAction} {s t : State} (h : call c s = .next t) :
    t.bus = s.bus ∧ t.traceEnabled = s.traceEnabled := by
  cases c with
  | step =>
    rcases step_cases h with ⟨-, -, rfl⟩ | ⟨-, -, u, hu, rfl⟩
    · exact ⟨rfl, rfl⟩
    · obtain ⟨l, hl⟩ := fetch_snd s.beginCall
      rw [hl] at hu
      simpa [finishFetchCall] using exec_keeps_parameters hu
  | reset =>
    obtain rfl := Host.Outcome.next.inj h
    exact ⟨rfl, rfl⟩
  | irq =>
    obtain ⟨-, -, rfl⟩ := admitted_cases h
    cases s.flag .I <;> simp [interruptEntry]
  | nmi =>
    obtain ⟨-, -, rfl⟩ := admitted_cases h
    simp [interruptEntry]
  | write a v =>
    obtain rfl := Host.Outcome.next.inj h
    exact ⟨rfl, rfl⟩

/-- Settles O60: whatever an instruction or a call does with memory is accesses the bus performs. -/
theorem accessLogIsConsistent : Obligations.AccessLogIsConsistent := by
  refine ⟨fun i s t h => ?_, fun c hc s t h => ?_, fun c s t h => call_keeps_parameters h⟩
  · obtain ⟨-, -, done, hacc, -, hrep⟩ := exec_performs h
    exact ⟨done, hacc, hrep⟩
  · obtain ⟨l, hl⟩ := call_performs hc h
    exact hl.record_of_call.2

end Sys2Proof.Machine
end

section
/-! Family `30_encoding.md` (R58 to R65): the decoder one equation per shape, its agreement with the
encoder in both directions, and the undocumented opcode bytes. -/

namespace Sys2Proof

/-! ### Decoding by the shape of the opcode (R58, R60) -/

theorem decode_one {op : Byte} {i : Instr} (h : shapeOf op = .one i) (rest : List Byte) :
    decode (op :: rest) = .ok i rest := by
  simp [decode, h, Shape.fill]

theorem decode_two {op : Byte} {f : Byte → Instr} (h : shapeOf op = .two f) (b : Byte)
    (rest : List Byte) : decode (op :: b :: rest) = .ok (f b) rest := by
  simp [decode, h, Shape.fill]

theorem decode_three {op : Byte} {f : Addr → Instr} (h : shapeOf op = .three f) (lo hi : Byte)
    (rest : List Byte) : decode (op :: lo :: hi :: rest) = .ok (f (joinBytes hi lo)) rest := by
  simp [decode, h, Shape.fill]

/-- The two bytes of a word, low byte first, decode to that word. -/
theorem decode_three_word {op : Byte} {f : Addr → Instr} (h : shapeOf op = .three f) (w : Addr)
    (rest : List Byte) : decode (op :: loByte w :: hiByte w :: rest) = .ok (f w) rest := by
  rw [decode_three h, joinBytes_hi_lo]

/-- No row of the opcode map has an opcode R64 lists. -/
theorem shapeOf_undocumented {op : Byte} (h : op ∈ undocumentedOpcodes) :
    shapeOf op = .one (.illegal op) := by
  have absent : ∀ op ∈ undocumentedOpcodes, findShape op.toNat opcodeMap = none := by
    decide +kernel
  rw [shapeOf, absent op h, Option.getD_none]

/-! ### Decoding an encoding gives the instruction back (R58, R60, R62) -/

/-- Settles O1, constructor by constructor: the opcode map has, at the constructor's opcode, a row
that builds it from as many operand bytes as the encoder lays down. -/
theorem decodeOfEncode : Obligations.DecodeOfEncode := by
  intro i rest hwf
  cases i with
  | ldaImm b | ldaZp0 b | ldaZpx b | ldaIzx b | ldaIzy b | ldxImm b | ldxZp0 b | ldxZpy b
  | ldyImm b | ldyZp0 b | ldyZpx b | staZp0 b | staZpx b | staIzx b | staIzy b | stxZp0 b
  | stxZpy b | styZp0 b | styZpx b | adcImm b | adcZp0 b | adcZpx b | adcIzx b | adcIzy b
  | sbcImm b | sbcZp0 b | sbcZpx b | sbcIzx b | sbcIzy b | cmpImm b | cmpZp0 b | cmpZpx b
  | cmpIzx b | cmpIzy b | cpxImm b | cpxZp0 b | cpyImm b | cpyZp0 b | andImm b | andZp0 b
  | andZpx b | andIzx b | andIzy b | oraImm b | oraZp0 b | oraZpx b | oraIzx b | oraIzy b
  | eorImm b | eorZp0 b | eorZpx b | eorIzx b | eorIzy b | bitZp0 b | aslZp0 b | aslZpx b
  | lsrZp0 b | lsrZpx b | rolZp0 b | rolZpx b | rorZp0 b | rorZpx b | incZp0 b | incZpx b
  | decZp0 b | decZpx b | bcc b | bcs b | beq b | bne b | bmi b | bpl b | bvc b | bvs b =>
    exact decode_two rfl b rest
  | ldaAbs w | ldaAbx w | ldaAby w | ldxAbs w | ldxAby w | ldyAbs w | ldyAbx w | staAbs w
  | staAbx w | staAby w | stxAbs w | styAbs w | adcAbs w | adcAbx w | adcAby w | sbcAbs w
  | sbcAbx w | sbcAby w | cmpAbs w | cmpAbx w | cmpAby w | cpxAbs w | cpyAbs w | andAbs w
  | andAbx w | andAby w | oraAbs w | oraAbx w | oraAby w | eorAbs w | eorAbx w | eorAby w
  | bitAbs w | aslAbs w | aslAbx w | lsrAbs w | lsrAbx w | rolAbs w | rolAbx w | rorAbs w
  | rorAbx w | incAbs w | incAbx w | decAbs w | decAbx w | jmpAbs w | jmpInd w | jsr w =>
    exact decode_three_word rfl w rest
  | illegal op => exact decode_one (shapeOf_undocumented (List.contains_iff_mem.mp hwf)) rest
  | _ => exact decode_one rfl rest

/-! ### What decodes is an encoding (R58, R61, R64) -/

/-- What a shape that agrees with the encoder makes of the bytes after the opcode. -/
theorem fill_ok_of_agrees {n : Nat} {sh : Shape} {tail rest : List Byte} {i : Instr}
    (agree : RowAgrees (n, sh)) (h : sh.fill tail = .ok i rest) :
    i.wf = true ∧ i.row.opcode.toNat = n ∧ tail = i.operand.bytes ++ rest := by
  cases sh with
  | one j =>
    obtain ⟨hop, hbytes, hwf, -⟩ := agree
    obtain ⟨rfl, rfl⟩ := Decoded.ok.inj h
    exact ⟨hwf, hop, by rw [hbytes, List.nil_append]⟩
  | two f =>
    match tail, h with
    | b :: _, h =>
      obtain ⟨hop, hbytes, hwf, -⟩ := agree b
      obtain ⟨rfl, rfl⟩ := Decoded.ok.inj h
      exact ⟨hwf, hop, by rw [hbytes]; rfl⟩
  | three f =>
    match tail, h with
    | lo :: hi :: _, h =>
      obtain ⟨hop, hbytes, hwf, -⟩ := agree (joinBytes hi lo)
      obtain ⟨rfl, rfl⟩ := Decoded.ok.inj h
      exact ⟨hwf, hop, by rw [hbytes, loByte_joinBytes, hiByte_joinBytes]; rfl⟩

/-- Settles O2: every shape agrees with the encoder. -/
theorem encodeOfDecode : Obligations.EncodeOfDecode := by
  intro bytes i rest h
  match bytes, h with
  | op :: tail, h =>
    obtain ⟨hwf, hop, htail⟩ := fill_ok_of_agrees (shapeOf_agrees op) h
    exact ⟨hwf, by rw [encode, BitVec.eq_of_toNat_eq hop, htail, List.cons_append]⟩

/-! ### The opcode byte alone chooses mnemonic, mode and length (R59, R61) -/

/-- An opcode without operand bytes: the entry of its instruction, one byte long. -/
theorem opcodeEntry_of_one {op : Byte} {i : Instr} (h : shapeOf op = .one i) :
    i.entry = opcodeEntry op ∧ (opcodeEntry op).mode.length = 1 := by
  have agree := shapeOf_agrees op
  rw [h] at agree
  obtain ⟨-, -, -, hlen⟩ := agree
  have hentry : i.entry = opcodeEntry op := by simp only [opcodeEntry, h]
  exact ⟨hentry, hentry ▸ hlen⟩

/-- An opcode with an operand byte: one entry whatever that byte is, two bytes long. -/
theorem opcodeEntry_of_two {op : Byte} {f : Byte → Instr} (h : shapeOf op = .two f) (b : Byte) :
    (f b).entry = opcodeEntry op ∧ (opcodeEntry op).mode.length = 2 := by
  have agree := shapeOf_agrees op
  rw [h] at agree
  obtain ⟨-, -, -, hlen, hzero⟩ := agree b
  have hentry : (f b).entry = opcodeEntry op := by simp only [hzero, opcodeEntry, h]
  exact ⟨hentry, hentry ▸ hlen⟩

/-- An opcode with an operand word: one entry whatever that word is, three bytes long. -/
theorem opcodeEntry_of_three {op : Byte} {f : Addr → Instr} (h : shapeOf op = .three f) (w : Addr) :
    (f w).entry = opcodeEntry op ∧ (opcodeEntry op).mode.length = 3 := by
  have agree := shapeOf_agrees op
  rw [h] at agree
  obtain ⟨-, -, -, hlen, hzero⟩ := agree w
  have hentry : (f w).entry = opcodeEntry op := by simp only [hzero, opcodeEntry, h]
  exact ⟨hentry, hentry ▸ hlen⟩

/-- Three bytes always decode, to an instruction with the entry of the opcode byte (R61). -/
theorem decode_of_three_bytes (op b c : Byte) (rest : List Byte) : ∃ i tail,
    decode (op :: b :: c :: rest) = .ok i tail ∧ i.entry = opcodeEntry op ∧
    tail = (op :: b :: c :: rest).drop (opcodeEntry op).mode.length := by
  cases h : shapeOf op with
  | one i =>
    obtain ⟨hentry, hlen⟩ := opcodeEntry_of_one h
    exact ⟨_, _, decode_one h _, hentry, by rw [hlen]; rfl⟩
  | two f =>
    obtain ⟨hentry, hlen⟩ := opcodeEntry_of_two h b
    exact ⟨_, _, decode_two h b _, hentry, by rw [hlen]; rfl⟩
  | three f =>
    obtain ⟨hentry, hlen⟩ := opcodeEntry_of_three h (joinBytes c b)
    exact ⟨_, _, decode_three h b c _, hentry, by rw [hlen]; rfl⟩

/-- An opcode byte alone is rejected when its entry asks for operand bytes (R59). -/
theorem decode_reject_of_opcode {op : Byte} (hlen : 1 < (opcodeEntry op).mode.length) :
    decode [op] = .reject .missingOperand := by
  cases h : shapeOf op with
  | one i => exact absurd (opcodeEntry_of_one h).2 hlen.ne'
  | two f => simp [decode, h, Shape.fill]
  | three f => simp [decode, h, Shape.fill]

/-- One operand byte is rejected when the entry asks for two (R59). -/
theorem decode_reject_of_two_bytes {op : Byte} (b : Byte)
    (hlen : 2 < (opcodeEntry op).mode.length) : decode [op, b] = .reject .missingOperand := by
  cases h : shapeOf op with
  | one i =>
    have := (opcodeEntry_of_one h).2
    omega
  | two f => exact absurd (opcodeEntry_of_two h b).2 hlen.ne'
  | three f => simp [decode, h, Shape.fill]

/-- Settles O3: each clause by the shape of the opcode byte. -/
theorem everyOpcodeDecodes : Obligations.EveryOpcodeDecodes :=
  ⟨decode_of_three_bytes, fun _ => decode_reject_of_opcode,
    fun _ => decode_reject_of_two_bytes, rfl⟩

/-! ### The undocumented bytes (R64, R146) -/

/-- No instruction but the sentinel has its mnemonic. -/
theorem eq_illegal_of_mnemonic {i : Instr} (h : i.mnemonic = .ILLEGAL) : ∃ op, i = .illegal op := by
  cases i with
  | illegal op => exact ⟨op, rfl⟩
  | _ => cases h

/-- A byte with the sentinel's mnemonic is listed: it decodes to a well-formed `illegal` of it. -/
theorem undocumented_of_mnemonic {op : Byte} (h : (opcodeEntry op).mnemonic = .ILLEGAL) :
    op ∈ undocumentedOpcodes := by
  obtain ⟨i, tail, hdecode, hentry, -⟩ := decode_of_three_bytes op 0 0 []
  obtain ⟨hwf, hbytes⟩ := encodeOfDecode _ _ _ hdecode
  obtain ⟨op', rfl⟩ := eq_illegal_of_mnemonic (i := i) (by rw [Instr.mnemonic, hentry, h])
  obtain ⟨rfl, -⟩ := List.cons.inj hbytes
  exact List.contains_iff_mem.mp hwf

theorem opcodeEntry_undocumented {op : Byte} (h : op ∈ undocumentedOpcodes) :
    opcodeEntry op = ⟨.ILLEGAL, .IMP, 2⟩ :=
  (opcodeEntry_of_one (shapeOf_undocumented h)).1.symm

end Sys2Proof

namespace Sys2Proof.Machine

/-- The sentinel runs as a no-op of two cycles, whatever byte it holds (R146). -/
theorem exec_illegal (op : Byte) (s : State) :
    exec (.illegal op) s =
      .next { s with pc := s.pc + 1, pending := 2, cur := ⟨.ILLEGAL, .IMP, 2⟩ } := rfl

theorem exec_illegal_frame (op : Byte) (s : State) :
    Answers (exec (.illegal op) s) fun t =>
      t.pc = s.pc + 1 ∧ t.pending = 2 ∧ Frame s t [] [] [] :=
  ⟨_, exec_illegal op s, rfl, rfl, {
    regs := fun r _ => by cases r <;> rfl
    flags := fun _ _ => rfl
    memory := .of_mem rfl rfl
    bus := rfl
    powered := rfl
    traceEnabled := rfl }⟩

end Sys2Proof.Machine

namespace Sys2Proof

/-- Settles O4: a listed byte is in no row of the opcode map, and a byte with the sentinel's
mnemonic is a listed one. -/
theorem undocumentedBytesAreSentinel : Obligations.UndocumentedBytesAreSentinel := by
  refine ⟨rfl, by decide +kernel, fun op => ⟨opcodeEntry_undocumented, fun h => ?_⟩,
    fun op => ⟨fun h => ?_, undocumented_of_mnemonic⟩, fun op h => ?_⟩
  · exact undocumented_of_mnemonic (by rw [h])
  · rw [opcodeEntry_undocumented h]
  · exact ⟨decode_one (shapeOf_undocumented h), Machine.exec_illegal_frame op⟩

/-! ### Sample words -/

/-- Settles O5: each word is decoded by the row of its opcode byte. -/
theorem sampleBytesDecode : Obligations.SampleBytesDecode := by
  unfold Obligations.SampleBytesDecode
  decide

end Sys2Proof
end

section
/-! Family `40_addressing.md` (R66 to R81): the resolver's effective address and PC mode by mode, as
numbers, and the page penalty. -/

namespace Sys2Proof.Machine

/-! ### Indexing and pointers as numbers (R45, R71, R72, R74 to R78) -/

theorem byte_succ_toNat (b : Byte) : (b + 1).toNat = (b.toNat + 1) % 256 :=
  BitVec.toNat_add b 1

/-- Indexing in page 0 wraps at 8 bits (R71, R72, R77). -/
theorem zext16_add_toNat (b index : Byte) :
    (zext16 (b + index)).toNat = (b.toNat + index.toNat) % 256 := by
  rw [zext16_toNat, BitVec.toNat_add]

/-- Indexing a word wraps at 16 bits (R74, R75, R78). -/
theorem add_zext16_toNat (w : Addr) (index : Byte) :
    (w + zext16 index).toNat = (w.toNat + index.toNat) % 65536 := by
  rw [BitVec.toNat_add, zext16_toNat]

/-- The address after a pointer's, in the pointer's own page (R76). -/
theorem nextInPage_toNat (w : Addr) :
    (nextInPage w).toNat = w.toNat / 256 * 256 + (w.toNat + 1) % 256 := by
  rw [nextInPage, joinBytes_toNat, hiByte_toNat, byte_succ_toNat, loByte_toNat, Nat.mod_add_mod]

/-- A word read from memory: the low byte is read first, and the high byte after it (R45). -/
theorem State.wordAt_toNat (s : State) (lo hi : Addr) :
    (s.wordAt lo hi).toNat = ((s.noteRead lo).byteAt hi).toNat * 256 + (s.byteAt lo).toNat :=
  joinBytes_toNat _ _

/-- The high byte of a word read from memory is the byte at its second address (R45). -/
theorem State.hiByte_wordAt (s : State) (lo hi : Addr) :
    hiByte (s.wordAt lo hi) = (s.noteRead lo).byteAt hi :=
  hiByte_joinBytes _ _

/-! ### What the resolver leaves, by the form of the operand (R66) -/

section
variable {i : Instr} {o : Operand}

theorem resolve_ea_of_operand (h : i.operand = o) (s : State) :
    (resolve i s).ea = effectiveAddress o s := by
  rw [resolve_ea, h]

/-- PC moves by the length of the operand's mode (R57, R59). -/
theorem resolve_pc_of_operand (h : i.operand = o) (s : State) :
    (resolve i s).pc = s.pc + BitVec.ofNat 16 o.mode.length := by
  rw [resolve_pc, Instr.length, ← operand_mode, h]

theorem resolverExtra_of_not_crossed {s : State} (h : pageCrossed i.operand s = false) :
    resolverExtra i s = 0 := by
  simp [resolverExtra, pagePenalty, h]

/-- The resolver's three results in a mode that crosses no page. -/
theorem resolve_of_not_crossed {s : State} (h : i.operand = o) (hc : pageCrossed o s = false) :
    (resolve i s).ea = effectiveAddress o s ∧
    (resolve i s).pc = s.pc + BitVec.ofNat 16 o.mode.length ∧ resolverExtra i s = 0 :=
  ⟨resolve_ea_of_operand h s, resolve_pc_of_operand h s,
    resolverExtra_of_not_crossed (by rw [h, hc])⟩

end

/-- Settles O25: none of the five modes can cross a page, and each address is read off its form. -/
theorem plainAddressingModes : Obligations.PlainAddressingModes := by
  refine fun i s b w => ⟨fun h => ?imm, fun h => ?zp0, fun h => ?zpx, fun h => ?abs, fun h => ?rel⟩
  case imm => exact resolve_of_not_crossed h rfl
  case zp0 =>
    obtain ⟨hea, hpc, hextra⟩ := resolve_of_not_crossed (s := s) h rfl
    exact ⟨hea ▸ zext16_toNat b, hpc, hextra⟩
  case zpx =>
    obtain ⟨hea, hpc, hextra⟩ := resolve_of_not_crossed (s := s) h rfl
    exact ⟨hea ▸ zext16_add_toNat b s.x, hpc, hextra⟩
  case abs => exact resolve_of_not_crossed h rfl
  case rel =>
    obtain ⟨hea, hpc, hextra⟩ := resolve_of_not_crossed (s := s) h rfl
    exact ⟨hea ▸ sext16_toInt b, hpc, hextra⟩

/-- Settles O26: an index is added before or after the pointer's two reads, and each
wrap is that of the sum's width. -/
theorem indexedAddressingModes : Obligations.IndexedAddressingModes := by
  refine fun i s b w => ⟨fun h => ?zpy, fun h => ?abx, fun h => ?aby, fun h => ?izx, fun h => ?izy,
    fun h => ?ind⟩ <;> rw [resolve_ea_of_operand h, effectiveAddress]
  case zpy => exact zext16_add_toNat b s.y
  case abx => exact add_zext16_toNat w s.x
  case aby => exact add_zext16_toNat w s.y
  case izx =>
    have hhi : (zext16 (b + s.x + 1)).toNat = (b.toNat + s.x.toNat + 1) % 256 := by
      rw [zext16_toNat, byte_succ_toNat, BitVec.toNat_add, Nat.mod_add_mod]
    exact ⟨zext16 (b + s.x), zext16 (b + s.x + 1), zext16_add_toNat b s.x, hhi,
      s.wordAt_toNat _ _⟩
  case izy =>
    refine ⟨zext16 b, zext16 (b + 1), zext16_toNat b, zext16_add_toNat b 1, ?_⟩
    rw [add_zext16_toNat, State.zeroPageWord, State.wordAt_toNat]
  case ind => exact ⟨nextInPage w, nextInPage_toNat w, s.wordAt_toNat _ _⟩

/-! ### The page penalty (R80) -/

/-- The modes whose index can carry into the high byte (R74, R75, R78). -/
def crossingModes : List Mode := [.ABX, .ABY, .IZY]

/-- In every other mode there is no page to cross. -/
theorem pageCrossed_of_mode {o : Operand} (h : o.mode ∉ crossingModes) (s : State) :
    pageCrossed o s = false := by
  cases o with
  | abx w | aby w | izy b => exact absurd (by simp [Operand.mode, crossingModes]) h
  | _ => rfl

/-- The marks of R62 are the nine mnemonics of R80 in the crossing modes; no undocumented byte has
one. -/
theorem mem_penaltyOpcodes_iff {i : Instr} (hwf : i.wf = true) :
    i.row.opcode ∈ penaltyOpcodes ↔ paysPagePenalty i.mnemonic = true ∧ i.mode ∈ crossingModes := by
  have table : penaltyOpcodes.contains i.row.opcode =
      (paysPagePenalty i.mnemonic && crossingModes.contains i.mode) := by
    cases i with
    | illegal op =>
      have unmarked : ∀ op ∈ undocumentedOpcodes, penaltyOpcodes.contains op = false := by
        decide +kernel
      exact unmarked op (List.contains_iff_mem.mp hwf)
    | _ => rfl
  rw [← List.contains_iff_mem, table, Bool.and_eq_true, List.contains_iff_mem]

/-- An unmarked opcode has a mnemonic that never pays, or a mode that never crosses. -/
theorem resolverExtra_of_unmarked {i : Instr} (hwf : i.wf = true)
    (h : i.row.opcode ∉ penaltyOpcodes) (s : State) : resolverExtra i s = 0 := by
  cases hpays : paysPagePenalty i.mnemonic with
  | false => exact resolverExtra_of_not_pays hpays s
  | true =>
    have hmode : i.mode ∉ crossingModes := fun hm =>
      h ((mem_penaltyOpcodes_iff hwf).mpr ⟨hpays, hm⟩)
    exact resolverExtra_of_not_crossed (pageCrossed_of_mode (by rwa [operand_mode]) s)

/-- A mnemonic that pays takes its one cycle exactly when a page is crossed. -/
theorem resolverExtra_eq_one_iff {i : Instr} (h : paysPagePenalty i.mnemonic = true) (s : State) :
    resolverExtra i s = 1 ↔ pageCrossed i.operand s = true := by
  simp [resolverExtra, pagePenalty, h]

/-- The resolver's comparison of high bytes is one of page numbers. -/
theorem hiByte_bne_iff (a w : Addr) :
    (hiByte a != hiByte w) = true ↔ a.toNat / 256 ≠ w.toNat / 256 := by
  rw [bne_iff_ne, Ne, hiByte_eq_iff]

/-- For (nn),Y the page before indexing is the pointer's high byte (R78). -/
theorem pageCrossed_izy_iff (b : Byte) (s : State) :
    pageCrossed (.izy b) s = true ↔ (effectiveAddress (.izy b) s).toNat / 256 ≠
      ((s.noteRead (zext16 b)).byteAt (zext16 (b + 1))).toNat := by
  rw [← s.hiByte_wordAt, hiByte_toNat]
  exact hiByte_bne_iff _ _

/-- Settles O27: by the table of marks, then mode by mode. -/
theorem pagePenalty_exact : Obligations.PagePenalty := by
  refine ⟨rfl, fun i s hwf h => resolverExtra_of_unmarked hwf h s, fun i s b w hwf h => ?_⟩
  have hpays := ((mem_penaltyOpcodes_iff hwf).mp h).1
  refine ⟨resolverExtra_le i s, fun ho => ?abx, fun ho => ?aby, fun ho => ?izy⟩ <;>
    rw [resolverExtra_eq_one_iff hpays, resolve_ea_of_operand ho, ho]
  case abx => exact hiByte_bne_iff _ w
  case aby => exact hiByte_bne_iff _ w
  case izy => exact pageCrossed_izy_iff b s

end Sys2Proof.Machine
end

section
/-! Family `41_load_store.md` (R82 to R87): what an instruction leaves alone and where it goes on,
by the tables of who writes what; what a load puts in its register; and the one write of a store. -/

namespace Sys2Proof.Machine

/-! ### What an instruction leaves alone, and where it goes on -/

/-- The frame of every instruction: the registers, flags and addresses that the tables of R15 to
R27, R47 and R50 name for it. -/
theorem exec_frame {i : Instr} {s t : State} {rs : List Reg} {fs : List Flag} {as : List Addr}
    (ht : exec i s = .next t) (hr : ∀ r, writesReg r i = true → r ∈ rs)
    (hf : ∀ f, i.mnemonic ∈ flagWriters f → f ∈ fs) (has : storeAddrs i s = as) :
    Frame s t rs fs as := by
  obtain ⟨u, hu, -, -, hpowered, htrace, hbus, -⟩ := eaAndCurAreOfTheInstruction i s
  obtain rfl : t = u := Host.Outcome.next.inj (ht.symm.trans hu)
  refine ⟨fun r hn => ?_, fun f hn => ?_, has ▸ memoryWriters i s t ht, hbus, hpowered, htrace⟩
  · exact registerWriters r i s t ht (Bool.eq_false_of_not_eq_true fun h => hn (hr r h))
  · exact flagWriters_complete f i s t ht fun h => hn (hf f h)

/-- An instruction that is no branch, jump, call, return or BRK goes on to the next one, and costs
its base cycles and the resolver's extra one (R17, R149). -/
theorem exec_sequential {i : Instr} {s t : State} (ht : exec i s = .next t)
    (hm : i.mnemonic ∉ [Mnemonic.JMP, .JSR, .RTS, .RTI, .BRK])
    (hb : branchTest i.mnemonic = none) :
    t.pc = nextPc i s ∧ t.pending = i.entry.baseCycles + resolverExtra i s := by
  have hcycles := branchCycles_of_not_branch hb s
  refine ⟨pcWriters i s t ht hm hcycles, ?_⟩
  rw [eq_of_exec ht, State.setPending_pending, cyclesOf, hcycles, Nat.add_zero]

/-- After `SetNZ`, N and Z follow the byte (R28). -/
theorem flagsFollow_of_setNZ {t : State} {p r : Byte} (h : t.p = setNZ p r) : FlagsFollow t r := by
  have hZ : t.flag .Z = (r == 0) := by simp [State.flag, h]
  have hN : t.flag .N = r.msb := by simp [State.flag, h]
  refine ⟨?_, ?_⟩
  · rw [hZ, beq_iff_eq, ← BitVec.toNat_inj]
    rfl
  · rw [hN, BitVec.msb_eq_decide, decide_eq_true_iff]

/-! ### Loads (R82 to R84) -/

/-- The loads, each with the register it loads (D19). -/
def loads : List (Mnemonic × Reg) := [(.LDA, .A), (.LDX, .X), (.LDY, .Y)]

theorem mem_loads_iff {m : Mnemonic} {r : Reg} :
    (m, r) ∈ loads ↔ m = .LDA ∧ r = .A ∨ m = .LDX ∧ r = .X ∨ m = .LDY ∧ r = .Y := by
  simp [loads]

section
variable {i : Instr} {r : Reg}

/-- A load puts the operand in its register and sets N and Z from it. -/
theorem semantics_of_load (h : (i.mnemonic, r) ∈ loads) (s : State) :
    (semantics i s).reg r = (operandByte i s).1 ∧
    (semantics i s).p = setNZ s.p (operandByte i s).1 := by
  rcases mem_loads_iff.mp h with ⟨hm, rfl⟩ | ⟨hm, rfl⟩ | ⟨hm, rfl⟩ <;>
    simp [semantics, hm, onOperand, loadA, loadX, loadY, State.reg]

/-- A load writes its register, N and Z, and no memory. -/
theorem load_frame (h : (i.mnemonic, r) ∈ loads) {s t : State} (ht : exec i s = .next t) :
    Frame s t [r] [.N, .Z] [] := by
  refine exec_frame ht (fun q hq => ?_) (fun f hf => ?_) ?_
  · rcases mem_loads_iff.mp h with ⟨hm, rfl⟩ | ⟨hm, rfl⟩ | ⟨hm, rfl⟩ <;>
      cases q <;> simp [writesReg, hm] at hq ⊢
  · have table : ∀ p ∈ loads, p.1 ∈ flagWriters f → f ∈ [Flag.N, .Z] := by cases f <;> decide
    exact table _ h hf
  · rcases mem_loads_iff.mp h with ⟨hm, -⟩ | ⟨hm, -⟩ | ⟨hm, -⟩ <;> rw [storeAddrs, hm]

/-- Every form of a load completes with the operand in its register (R82 to R84). -/
theorem exec_of_load (h : (i.mnemonic, r) ∈ loads) (s : State) :
    Answers (exec i s) fun t =>
      t.reg r = memOperand i s ∧ FlagsFollow t (memOperand i s) ∧ t.pc = nextPc i s ∧
      t.pending = i.entry.baseCycles + resolverExtra i s ∧ Frame s t [r] [.N, .Z] [] := by
  obtain ⟨hreg, hp⟩ := semantics_of_load h (resolve i s)
  rw [operandByte_fst] at hreg hp
  have table : ∀ p ∈ loads, p.1 ∉ [Mnemonic.JMP, .JSR, .RTS, .RTI, .BRK] ∧
      branchTest p.1 = none := by decide
  obtain ⟨hjump, hbranch⟩ := table _ h
  obtain ⟨hpc, hpending⟩ := exec_sequential (exec_eq i s) hjump hbranch
  refine ⟨_, exec_eq i s, ?_, flagsFollow_of_setNZ hp, hpc, hpending, load_frame h (exec_eq i s)⟩
  rw [State.setPending_reg, hreg]

end

/-- Settles O28: the three loads are one, of the register named. -/
theorem loadsTakeTheOperand : Obligations.LoadsTakeTheOperand := fun i s =>
  ⟨fun h => exec_of_load (r := .A) (by rw [h]; decide) s,
    fun h => exec_of_load (r := .X) (by rw [h]; decide) s,
    fun h => exec_of_load (r := .Y) (by rw [h]; decide) s⟩

/-! ### Stores (R85 to R87) -/

/-- The stores, each with the register it stores (D19). -/
def stores : List (Mnemonic × Reg) := [(.STA, .A), (.STX, .X), (.STY, .Y)]

theorem mem_stores_iff {m : Mnemonic} {r : Reg} :
    (m, r) ∈ stores ↔ m = .STA ∧ r = .A ∨ m = .STX ∧ r = .X ∨ m = .STY ∧ r = .Y := by
  simp [stores]

section
variable {i : Instr} {r : Reg}

/-- A store writes its register at `ea` and does nothing else. -/
theorem semantics_of_store (h : (i.mnemonic, r) ∈ stores) (s : State) :
    semantics i s = memWrite s.ea (s.reg r) s := by
  rcases mem_stores_iff.mp h with ⟨hm, rfl⟩ | ⟨hm, rfl⟩ | ⟨hm, rfl⟩ <;> rw [semantics, hm] <;> rfl

/-- A store writes no register and no flag, and memory at most at its effective address. -/
theorem store_frame (h : (i.mnemonic, r) ∈ stores) {s t : State} (ht : exec i s = .next t) :
    Frame s t [] [] [effectiveAddress i.operand s] := by
  refine exec_frame ht (fun q hq => ?_) (fun f hf => ?_) ?_
  · rcases mem_stores_iff.mp h with ⟨hm, -⟩ | ⟨hm, -⟩ | ⟨hm, -⟩ <;>
      cases q <;> simp [writesReg, hm] at hq
  · have table : ∀ p ∈ stores, p.1 ∉ flagWriters f := by cases f <;> decide
    exact absurd hf (table _ h)
  · rcases mem_stores_iff.mp h with ⟨hm, -⟩ | ⟨hm, -⟩ | ⟨hm, -⟩ <;> rw [storeAddrs, hm]

/-- Every form of a store completes with one write, at the effective address (R85 to R87). -/
theorem exec_of_store (h : (i.mnemonic, r) ∈ stores) {s : State} (hw : s.mem.wf = true) :
    Answers (exec i s) fun t =>
      t.accesses = (resolve i s).accesses ++ [.write (effectiveAddress i.operand s) (s.reg r)] ∧
      (s.bus = Bus.ram → t.byteAt (effectiveAddress i.operand s) = s.reg r) ∧ t.pc = nextPc i s ∧
      t.pending = i.entry.baseCycles ∧ Frame s t [] [] [effectiveAddress i.operand s] := by
  have hsem := semantics_of_store h (resolve i s)
  rw [resolve_ea, resolve_reg] at hsem
  have table : ∀ p ∈ stores, p.1 ∉ [Mnemonic.JMP, .JSR, .RTS, .RTI, .BRK] ∧
      branchTest p.1 = none ∧ paysPagePenalty p.1 = false := by decide
  obtain ⟨hjump, hbranch, hpays⟩ := table _ h
  obtain ⟨hpc, hpending⟩ := exec_sequential (exec_eq i s) hjump hbranch
  rw [resolverExtra_of_not_pays hpays, Nat.add_zero] at hpending
  refine ⟨_, exec_eq i s, ?_, fun hb => ?_, hpc, hpending, store_frame h (exec_eq i s)⟩
  · rw [State.setPending_accesses, hsem, memWrite_accesses]
  · rw [State.setPending_byteAt, hsem]
    exact memWrite_byteAt_same _ _ _ (by rwa [resolve_bus]) (by rwa [resolve_mem])

end

/-- Settles O29: the three stores are one, of the register named. -/
theorem storesWriteOneByte : Obligations.StoresWriteOneByte := fun i _ hw =>
  ⟨fun h => exec_of_store (i := i) (r := .A) (by rw [h]; decide) hw,
    fun h => exec_of_store (i := i) (r := .X) (by rw [h]; decide) hw,
    fun h => exec_of_store (i := i) (r := .Y) (by rw [h]; decide) hw⟩

end Sys2Proof.Machine
end

section
/-! Family `42_arith_compare.md` (R89 to R97): the binary sum as an integer, which binary subtraction
reads with the operand complemented; decimal addition and subtraction digit by digit; and the three
families of instructions on top of them. -/

namespace Sys2Proof.Machine

/-! ### The binary sum (R89) -/

section
variable (a m : Byte) (c : Bool)

theorem addBinary_result :
    (addBinary a m c).result = BitVec.ofNat 8 (a.toNat + m.toNat + c.toNat) := rfl

theorem addBinary_carry_iff :
    (addBinary a m c).carry = true ↔ 255 < a.toNat + m.toNat + c.toNat :=
  decide_eq_true_iff

/-- The mask of R89's overflow rule picks out the sign bit. -/
theorem and_signMask_bne_zero (x : Byte) : (x &&& 0x80 != 0) = x.msb := by
  have hmask : x &&& 0x80 = if x.getLsbD 7 then BitVec.twoPow 8 7 else 0#8 := BitVec.and_twoPow x 7
  rw [hmask, BitVec.msb_eq_getLsbD_last]
  cases x.getLsbD 7 <;> rfl

/-- V by R89's rule: the operands agree in sign and the sum differs from them. -/
theorem addBinary_overflow :
    (addBinary a m c).overflow =
      ((a.msb == m.msb) && (a.msb != (addBinary a m c).result.msb)) := by
  simp only [addBinary, and_signMask_bne_zero, BitVec.msb_and, BitVec.msb_not, BitVec.msb_xor]
  cases a.msb <;> cases m.msb <;> simp

/-- V is signed overflow: the sum of the signed operands and the carry is no signed byte. -/
theorem addBinary_overflow_iff :
    (addBinary a m c).overflow = true ↔
      a.toInt + m.toInt + (c.toNat : Int) < -128 ∨ 127 < a.toInt + m.toInt + (c.toNat : Int) := by
  have ha := a.isLt
  have hm := m.isLt
  have hc := c.toNat_le
  simp only [addBinary_overflow, addBinary_result, BitVec.msb_eq_decide, BitVec.toInt_eq_toNat_cond,
    BitVec.toNat_ofNat, Bool.and_eq_true, beq_iff_eq, bne_iff_ne, ne_eq, decide_eq_decide]
  omega

/-! ### The binary sum with the complemented operand is a subtraction (R93) -/

theorem complement_toNat : (m ^^^ 0xFF).toNat = 255 - m.toNat := by
  have hnot : m ^^^ 0xFF = ~~~m := BitVec.xor_allOnes
  rw [hnot, BitVec.toNat_not]

/-- As a signed number the complement is one below the negative. -/
theorem complement_toInt : (m ^^^ 0xFF).toInt = -m.toInt - 1 := by
  have hm := m.isLt
  simp only [BitVec.toInt_eq_toNat_cond, complement_toNat]
  omega

/-- The exact sum with the complement is 256 more than the difference and the borrow. -/
theorem sum_complement :
    ((a.toNat + (m ^^^ 0xFF).toNat + c.toNat : Nat) : Int) =
      (a.toNat : Int) - m.toNat - (1 - (c.toNat : Int)) + 256 := by
  have hm := m.isLt
  rw [complement_toNat]
  omega

/-- The result is the difference with the borrow, narrowed. -/
theorem subBinary_result :
    (addBinary a (m ^^^ 0xFF) c).result =
      BitVec.ofInt 8 ((a.toNat : Int) - m.toNat - (1 - (c.toNat : Int))) := by
  apply BitVec.eq_of_toNat_eq
  have hsum := sum_complement a m c
  rw [addBinary_result, BitVec.toNat_ofNat, BitVec.toNat_ofInt]
  omega

/-- The carry of a subtraction is "no borrow". -/
theorem subBinary_carry_iff :
    (addBinary a (m ^^^ 0xFF) c).carry = true ↔
      0 ≤ (a.toNat : Int) - m.toNat - (1 - (c.toNat : Int)) := by
  have hsum := sum_complement a m c
  rw [addBinary_carry_iff]
  omega

/-- V is signed overflow of the difference with the borrow. -/
theorem subBinary_overflow_iff :
    (addBinary a (m ^^^ 0xFF) c).overflow = true ↔
      a.toInt - m.toInt - (1 - (c.toNat : Int)) < -128 ∨
        127 < a.toInt - m.toInt - (1 - (c.toNat : Int)) := by
  rw [addBinary_overflow_iff, complement_toInt]
  omega

end

/-! ### Decimal digits (R90, R91) -/

/-- A byte put together from two nibbles has them as its nibbles. -/
theorem nibbles_of_ofNat {hi lo : Nat} (hhi : hi < 16) (hlo : lo < 16) :
    (BitVec.ofNat 8 (hi * 16 + lo)).toNat / 16 = hi ∧
    (BitVec.ofNat 8 (hi * 16 + lo)).toNat % 16 = lo := by
  rw [BitVec.toNat_ofNat]
  omega

/-- A byte put together from two decimal digits is the number they write. -/
theorem isBcd_of_digits {hi lo : Nat} (hhi : hi < 10) (hlo : lo < 10) :
    IsBcd (BitVec.ofNat 8 (hi * 16 + lo)) ∧
    bcdValue (BitVec.ofNat 8 (hi * 16 + lo)) = hi * 10 + lo := by
  obtain ⟨hdiv, hmod⟩ := nibbles_of_ofNat (hi := hi) (lo := lo) (by omega) (by omega)
  rw [IsBcd, bcdValue, hdiv, hmod]
  exact ⟨⟨hlo, hhi⟩, rfl⟩

/-- The correction of a sum of two digits and a carry: the nibble is its last decimal digit, and it
carries into the next nibble when the sum has two. -/
theorem adjustNibble_of_lt {n : Nat} (h : n < 20) :
    adjustNibble n % 16 = n % 10 ∧ (0x0F < adjustNibble n ↔ 9 < n) := by
  unfold adjustNibble
  split <;> omega

/-- The correction of a difference of two digits and a borrow: the nibble is its digit modulo 10. -/
theorem borrowed_nibble {n : Int} (hlow : -10 ≤ n) (hhigh : n < 10) :
    (if n < 0 then n - 6 else n) % 16 = n % 10 := by
  split <;> omega

section
variable {a m : Byte}

/-- On digits `AdcDecimal` writes the last digit of each sum of digits, and carries when a sum has
two digits (R90). -/
theorem adcDecimal_of_digits (ha : IsBcd a) (hm : IsBcd m) (c : Bool) : ∃ lo hi : Nat,
    lo = a.toNat % 16 + m.toNat % 16 + c.toNat ∧
    hi = a.toNat / 16 + m.toNat / 16 + (if 9 < lo then 1 else 0) ∧
    adcDecimal a m c = (BitVec.ofNat 8 (hi % 10 * 16 + lo % 10), decide (9 < hi)) := by
  obtain ⟨haLo, haHi⟩ := ha
  obtain ⟨hmLo, hmHi⟩ := hm
  have hc := c.toNat_le
  refine ⟨_, _, rfl, rfl, ?_⟩
  have hlo := adjustNibble_of_lt (n := a.toNat % 16 + m.toNat % 16 + c.toNat) (by omega)
  have hhi := adjustNibble_of_lt (n := a.toNat / 16 + m.toNat / 16 +
    if 9 < a.toNat % 16 + m.toNat % 16 + c.toNat then 1 else 0) (by split <;> omega)
  simp only [adcDecimal, gt_iff_lt, hlo, hhi]

/-- On digits `SbcDecimal` writes each difference of digits modulo 10, and borrows when the lower
one is negative (R91). -/
theorem sbcDecimal_of_digits (ha : IsBcd a) (hm : IsBcd m) (c : Bool) : ∃ lo hi : Int,
    lo = (a.toNat % 16 : Nat) - (m.toNat % 16 : Nat) - (1 - (c.toNat : Int)) ∧
    hi = (if lo < 0 then ((a.toNat / 16 : Nat) : Int) - (m.toNat / 16 : Nat) - 1
      else ((a.toNat / 16 : Nat) : Int) - (m.toNat / 16 : Nat)) ∧
    sbcDecimal a m c = BitVec.ofNat 8 ((hi % 10).toNat * 16 + (lo % 10).toNat) := by
  obtain ⟨haLo, haHi⟩ := ha
  obtain ⟨hmLo, hmHi⟩ := hm
  have hc := c.toNat_le
  refine ⟨_, _, rfl, rfl, ?_⟩
  rw [sbcDecimal, borrowed_nibble (by omega) (by omega), borrowed_nibble (by omega) (by omega)]

end

/-- Settles O32: two digits, whose carries make up the sum. -/
theorem adcDecimalAddsDecimals : Obligations.AdcDecimalAddsDecimals := by
  intro a m c ha hm
  obtain ⟨lo, hi, hlo, hhi, heq⟩ := adcDecimal_of_digits ha hm c
  obtain ⟨hbcd, hvalue⟩ := isBcd_of_digits (hi := hi % 10) (lo := lo % 10) (by omega) (by omega)
  obtain ⟨haLo, haHi⟩ := ha
  obtain ⟨hmLo, hmHi⟩ := hm
  have hc := c.toNat_le
  have hhundreds : (decide (9 < hi)).toNat = if 9 < hi then 1 else 0 := Bool.cond_decide _ 1 0
  rw [heq]
  refine ⟨hbcd, ?_⟩
  rw [hvalue, hhundreds, bcdValue, bcdValue]
  split at hhi <;> split <;> omega

/-- Settles O33: two digits, whose borrows make up the difference. -/
theorem sbcDecimalSubtractsDecimals : Obligations.SbcDecimalSubtractsDecimals := by
  intro a m c ha hm
  obtain ⟨lo, hi, hlo, hhi, heq⟩ := sbcDecimal_of_digits ha hm c
  obtain ⟨hbcd, hvalue⟩ := isBcd_of_digits (hi := (hi % 10).toNat) (lo := (lo % 10).toNat)
    (by omega) (by omega)
  obtain ⟨haLo, haHi⟩ := ha
  obtain ⟨hmLo, hmHi⟩ := hm
  have hc := c.toNat_le
  rw [heq, subBinary_carry_iff]
  refine ⟨hbcd, ?_, ?_⟩
  · rw [hvalue, bcdValue, bcdValue]
    omega
  · rw [bcdValue, bcdValue]
    omega

/-! ### Instructions that read an operand (R67) -/

/-- A reading instruction stores nothing (R67). -/
theorem storeAddrs_of_read {i : Instr} (h : i.mnemonic ∈ readMnemonics) (s : State) :
    storeAddrs i s = [] := by
  simp only [readMnemonics, List.mem_cons, List.not_mem_nil, or_false] at h
  rcases h with hm | hm | hm | hm | hm | hm | hm | hm | hm | hm | hm | hm <;> rw [storeAddrs, hm]

/-- A reading instruction goes on to the next one and pays the page penalty, and changes only what
the tables of R15 to R27 name for it. -/
theorem exec_of_read {i : Instr} {s t : State} {rs : List Reg} {fs : List Flag}
    (h : i.mnemonic ∈ readMnemonics) (ht : exec i s = .next t)
    (hr : ∀ r, writesReg r i = true → r ∈ rs) (hf : ∀ f, i.mnemonic ∈ flagWriters f → f ∈ fs) :
    t.pc = nextPc i s ∧ t.pending = i.entry.baseCycles + resolverExtra i s ∧ Frame s t rs fs [] := by
  have table : ∀ m ∈ readMnemonics, m ∉ [Mnemonic.JMP, .JSR, .RTS, .RTI, .BRK] ∧
      branchTest m = none := by decide
  obtain ⟨hjump, hbranch⟩ := table _ h
  obtain ⟨hpc, hpending⟩ := exec_sequential ht hjump hbranch
  exact ⟨hpc, hpending, exec_frame ht hr hf (storeAddrs_of_read h s)⟩

/-! ### ADC and SBC (R92, R93) -/

theorem adcFlags_a (a m p : Byte) :
    (adcFlags a m p).a = bif getFlag p .D then (adcDecimal a m (getFlag p .C)).1
      else (addBinary a m (getFlag p .C)).result := rfl

theorem sbcFlags_a (a m p : Byte) :
    (sbcFlags a m p).a = bif getFlag p .D then sbcDecimal a m (getFlag p .C)
      else (addBinary a (m ^^^ 0xFF) (getFlag p .C)).result := rfl

section
variable {i : Instr} {s t : State}

/-- ADC and SBC write A and four flags, and no memory. -/
theorem exec_of_adder (h : i.mnemonic ∈ [Mnemonic.ADC, .SBC]) (ht : exec i s = .next t) :
    t.pc = nextPc i s ∧ t.pending = i.entry.baseCycles + resolverExtra i s ∧
    Frame s t [.A] [.N, .V, .Z, .C] [] := by
  refine exec_of_read ?_ ht (fun r hr => ?_) (fun f hf => ?_)
  · have table : ∀ m ∈ [Mnemonic.ADC, .SBC], m ∈ readMnemonics := by decide
    exact table _ h
  · simp only [List.mem_cons, List.not_mem_nil, or_false] at h
    rcases h with hm | hm <;> cases r <;> simp [writesReg, hm] at hr ⊢
  · have table : ∀ m ∈ [Mnemonic.ADC, .SBC], m ∈ flagWriters f → f ∈ [Flag.N, .V, .Z, .C] := by
      cases f <;> decide
    exact table _ h hf

/-- ADC leaves A and P as `adcFlags` of A, the operand and P (R92). -/
theorem exec_of_adc (h : i.mnemonic = .ADC) (ht : exec i s = .next t) :
    t.a = (adcFlags s.a (memOperand i s) s.p).a ∧
    t.p = (adcFlags s.a (memOperand i s) s.p).p := by
  simp [eq_of_exec ht, semantics, h, onOperand, addToA]

/-- SBC leaves A and P as `sbcFlags` of A, the operand and P (R93). -/
theorem exec_of_sbc (h : i.mnemonic = .SBC) (ht : exec i s = .next t) :
    t.a = (sbcFlags s.a (memOperand i s) s.p).a ∧
    t.p = (sbcFlags s.a (memOperand i s) s.p).p := by
  simp [eq_of_exec ht, semantics, h, onOperand, subFromA]

end

/-- Settles O30: the flags but C are those of the binary sum, and D chooses A and C. -/
theorem adcResult : Obligations.AdcResult := by
  intro i s h
  have ht := exec_eq i s
  obtain ⟨ha, hp⟩ := exec_of_adc h ht
  obtain ⟨hpc, hpending, hframe⟩ := exec_of_adder (by rw [h]; decide) ht
  refine ⟨_, ht, ?_⟩
  simp only [State.flag, ha, hp, adcFlags_a, getFlag_adcFlags]
  refine ⟨fun hD => ?binary, fun hD => ?decimal, addBinary_overflow_iff _ _ _,
    flagsFollow_of_setNZ hp, hpc, hpending, hframe⟩
  case binary =>
    rw [hD, cond_false, cond_false, addBinary_result, BitVec.toNat_ofNat]
    exact ⟨rfl, addBinary_carry_iff _ _ _⟩
  case decimal =>
    rw [hD, cond_true, cond_true]
    exact ⟨rfl, rfl⟩

/-- Settles O31: the four flags are those of the binary difference, and D chooses A. -/
theorem sbcResult : Obligations.SbcResult := by
  intro i s h
  have ht := exec_eq i s
  obtain ⟨ha, hp⟩ := exec_of_sbc h ht
  obtain ⟨hpc, hpending, hframe⟩ := exec_of_adder (by rw [h]; decide) ht
  refine ⟨_, ht, ?_⟩
  simp only [State.flag, ha, hp, sbcFlags_a, getFlag_sbcFlags]
  refine ⟨fun hD => ?binary, fun hD => ?decimal, subBinary_carry_iff _ _ _,
    subBinary_overflow_iff _ _ _, ?follow, hpc, hpending, hframe⟩
  case binary =>
    rw [hD, cond_false, subBinary_result, BitVec.toNat_ofInt]
    omega
  case decimal => rw [hD, cond_true]
  case follow =>
    rw [← subBinary_result]
    exact flagsFollow_of_setNZ hp

/-! ### Compare (R94 to R97) -/

/-- The compares, each with the register it compares (R95 to R97). -/
def compares : List (Mnemonic × Reg) := [(.CMP, .A), (.CPX, .X), (.CPY, .Y)]

theorem mem_compares_iff {m : Mnemonic} {r : Reg} :
    (m, r) ∈ compares ↔ m = .CMP ∧ r = .A ∨ m = .CPX ∧ r = .X ∨ m = .CPY ∧ r = .Y := by
  simp [compares]

section
variable {i : Instr} {r : Reg}

/-- A compare sets P by `Compare` of its register and the operand. -/
theorem exec_of_compare_p {s t : State} (h : (i.mnemonic, r) ∈ compares)
    (ht : exec i s = .next t) : t.p = compareFlags (s.reg r) (memOperand i s) s.p := by
  rcases mem_compares_iff.mp h with ⟨hm, rfl⟩ | ⟨hm, rfl⟩ | ⟨hm, rfl⟩ <;>
    simp [eq_of_exec ht, semantics, hm, onOperand, compareWith, State.reg]

/-- A compare writes three flags, no register and no memory. -/
theorem exec_of_compare_frame {s t : State} (h : (i.mnemonic, r) ∈ compares)
    (ht : exec i s = .next t) :
    t.pc = nextPc i s ∧ t.pending = i.entry.baseCycles + resolverExtra i s ∧
    Frame s t [] [.N, .Z, .C] [] := by
  refine exec_of_read ?_ ht (fun q hq => ?_) (fun f hf => ?_)
  · have table : ∀ p ∈ compares, p.1 ∈ readMnemonics := by decide
    exact table _ h
  · rcases mem_compares_iff.mp h with ⟨hm, -⟩ | ⟨hm, -⟩ | ⟨hm, -⟩ <;>
      cases q <;> simp [writesReg, hm] at hq
  · have table : ∀ p ∈ compares, p.1 ∈ flagWriters f → f ∈ [Flag.N, .Z, .C] := by
      cases f <;> decide
    exact table _ h hf

/-- Every form of a compare completes with C, Z and N as the unsigned comparison, equality and bit 7
of the difference (R94). -/
theorem exec_of_compare (h : (i.mnemonic, r) ∈ compares) (s : State) :
    Answers (exec i s) fun t =>
      (t.flag .C = true ↔ (memOperand i s).toNat ≤ (s.reg r).toNat) ∧
      (t.flag .Z = true ↔ s.reg r = memOperand i s) ∧
      (t.flag .N = true ↔ 128 ≤ ((s.reg r).toNat + 256 - (memOperand i s).toNat) % 256) ∧
      t.pc = nextPc i s ∧ t.pending = i.entry.baseCycles + resolverExtra i s ∧
      Frame s t [] [.N, .Z, .C] [] := by
  have ht := exec_eq i s
  refine ⟨_, ht, ?_, ?_, ?_, exec_of_compare_frame h ht⟩ <;>
    rw [State.flag, exec_of_compare_p h ht, getFlag_compareFlags]
  · exact decide_eq_true_iff
  · exact beq_iff_eq
  · have hm := (memOperand i s).isLt
    rw [BitVec.msb_eq_decide, decide_eq_true_iff, BitVec.toNat_sub]
    omega

end

/-- Settles O34: the three compares are one, of the register named, and CPX and CPY never pay the
page penalty. -/
theorem compareSetsCarryZeroNegative : Obligations.CompareSetsCarryZeroNegative := by
  intro i s
  refine ⟨fun h => exec_of_compare (r := .A) (by rw [h]; decide) s, fun h => ?_, fun h => ?_⟩
  · have hx := exec_of_compare (i := i) (r := .X) (by rw [h]; decide) s
    rwa [resolverExtra_of_not_pays (by rw [h]; decide), Nat.add_zero] at hx
  · have hy := exec_of_compare (i := i) (r := .Y) (by rw [h]; decide) s
    rwa [resolverExtra_of_not_pays (by rw [h]; decide), Nat.add_zero] at hy

end Sys2Proof.Machine
end

section
/-! Family `43_logic_shift.md` (R98 to R106): the logical instructions bit by bit, BIT, and the shifts
and rotates as read-modify-writes (`20_memory.md` R48), on the accumulator and on memory. -/

namespace Sys2Proof.Machine

/-! ### AND, ORA, EOR (R98 to R100) -/

/-- The logical mnemonics, each with what it makes of a bit of A and a bit of the operand (D19). -/
def logics : List (Mnemonic × (Bool → Bool → Bool)) := [(.AND, and), (.ORA, or), (.EOR, xor)]

theorem mem_logics_iff {m : Mnemonic} {op : Bool → Bool → Bool} :
    (m, op) ∈ logics ↔ m = .AND ∧ op = and ∨ m = .ORA ∧ op = or ∨ m = .EOR ∧ op = xor := by
  simp [logics]

section
variable {i : Instr} {op : Bool → Bool → Bool}

/-- A logical instruction combines A and the operand bit by bit and sets N and Z from the result. -/
theorem exec_of_logic_a {s t : State} (h : (i.mnemonic, op) ∈ logics) (ht : exec i s = .next t) :
    (∀ k, t.a.getLsbD k = op (s.a.getLsbD k) ((memOperand i s).getLsbD k)) ∧
    t.p = setNZ s.p t.a := by
  rcases mem_logics_iff.mp h with ⟨hm, rfl⟩ | ⟨hm, rfl⟩ | ⟨hm, rfl⟩ <;>
    simp [eq_of_exec ht, semantics, hm, onOperand, andA, orA, eorA]

/-- A logical instruction writes A, N and Z, and no memory. -/
theorem exec_of_logic_frame {s t : State} (h : (i.mnemonic, op) ∈ logics)
    (ht : exec i s = .next t) :
    t.pc = nextPc i s ∧ t.pending = i.entry.baseCycles + resolverExtra i s ∧
    Frame s t [.A] [.N, .Z] [] := by
  refine exec_of_read ?_ ht (fun r hr => ?_) (fun f hf => ?_)
  · have table : ∀ p ∈ logics, p.1 ∈ readMnemonics := by decide
    exact table _ h
  · rcases mem_logics_iff.mp h with ⟨hm, -⟩ | ⟨hm, -⟩ | ⟨hm, -⟩ <;>
      cases r <;> simp [writesReg, hm] at hr ⊢
  · have table : ∀ p ∈ logics, p.1 ∈ flagWriters f → f ∈ [Flag.N, .Z] := by cases f <;> decide
    exact table _ h hf

/-- Every form of a logical instruction completes with the combination in A (R98 to R100). -/
theorem exec_of_logic (h : (i.mnemonic, op) ∈ logics) (s : State) :
    Answers (exec i s) fun t =>
      (∀ k, t.a.getLsbD k = op (s.a.getLsbD k) ((memOperand i s).getLsbD k)) ∧
      FlagsFollow t t.a ∧ t.pc = nextPc i s ∧
      t.pending = i.entry.baseCycles + resolverExtra i s ∧ Frame s t [.A] [.N, .Z] [] := by
  have ht := exec_eq i s
  obtain ⟨ha, hp⟩ := exec_of_logic_a h ht
  exact ⟨_, ht, ha, flagsFollow_of_setNZ hp, exec_of_logic_frame h ht⟩

end

/-- Settles O35: the three logical instructions are one, of the operation on bits named. -/
theorem logicCombinesBits : Obligations.LogicCombinesBits := fun i s =>
  ⟨fun h => exec_of_logic (i := i) (op := and) (mem_logics_iff.mpr (.inl ⟨h, rfl⟩)) s,
    fun h => exec_of_logic (i := i) (op := or) (mem_logics_iff.mpr (.inr (.inl ⟨h, rfl⟩))) s,
    fun h => exec_of_logic (i := i) (op := xor) (mem_logics_iff.mpr (.inr (.inr ⟨h, rfl⟩))) s⟩

/-! ### BIT (R101) -/

section
variable {i : Instr} {s t : State}

/-- BIT leaves P as `bitFlags` of A, the operand and P. -/
theorem exec_of_bit_p (h : i.mnemonic = .BIT) (ht : exec i s = .next t) :
    t.p = bitFlags s.a (memOperand i s) s.p := by
  simp [eq_of_exec ht, semantics, h, onOperand, bitTest]

/-- BIT writes three flags, no register and no memory. -/
theorem exec_of_bit_frame (h : i.mnemonic = .BIT) (ht : exec i s = .next t) :
    t.pc = nextPc i s ∧ t.pending = i.entry.baseCycles + resolverExtra i s ∧
    Frame s t [] [.N, .V, .Z] [] := by
  refine exec_of_read (by rw [h]; decide) ht (fun r hr => ?_) (fun f hf => ?_)
  · cases r <;> simp [writesReg, h] at hr
  · have table : Mnemonic.BIT ∈ flagWriters f → f ∈ [Flag.N, .V, .Z] := by cases f <;> decide
    exact table (h ▸ hf)

end

/-- Settles O36: the flags are those of `bitFlags`, and BIT never pays the page penalty. -/
theorem bitTestsMemory : Obligations.BitTestsMemory := by
  intro i s h
  have ht := exec_eq i s
  have hp := exec_of_bit_p h ht
  have hframe := exec_of_bit_frame h ht
  rw [resolverExtra_of_not_pays (by rw [h]; decide), Nat.add_zero] at hframe
  refine ⟨_, ht, ?_, ?_, ?_, hframe⟩ <;> rw [State.flag, hp, getFlag_bitFlags]
  exact beq_iff_eq

/-! ### Read-modify-write instructions (R48) -/

/-- The read-modify-write mnemonics, each with what it makes of a byte and P (R103 to R108). -/
def modifyOps : List (Mnemonic × (Byte → Byte → ModifyResult)) :=
  [(.ASL, aslByte), (.LSR, lsrByte), (.ROL, rolByte), (.ROR, rorByte), (.INC, incByte),
   (.DEC, decByte)]

theorem mem_modifyOps_iff {m : Mnemonic} {f : Byte → Byte → ModifyResult} :
    (m, f) ∈ modifyOps ↔
      m = .ASL ∧ f = aslByte ∨ m = .LSR ∧ f = lsrByte ∨ m = .ROL ∧ f = rolByte ∨
      m = .ROR ∧ f = rorByte ∨ m = .INC ∧ f = incByte ∨ m = .DEC ∧ f = decByte := by
  simp [modifyOps]

/-- After every read-modify-write N and Z follow the byte it makes. -/
theorem flagsFollow_of_modifyOps {m : Mnemonic} {f : Byte → Byte → ModifyResult}
    (h : (m, f) ∈ modifyOps) {v p : Byte} {t : State} (ht : t.p = (f v p).p) :
    FlagsFollow t (f v p).value := by
  have hp : ∃ q, (f v p).p = setNZ q (f v p).value := by
    rcases mem_modifyOps_iff.mp h with
      ⟨-, rfl⟩ | ⟨-, rfl⟩ | ⟨-, rfl⟩ | ⟨-, rfl⟩ | ⟨-, rfl⟩ | ⟨-, rfl⟩ <;> exact ⟨_, rfl⟩
  obtain ⟨q, hq⟩ := hp
  exact flagsFollow_of_setNZ (ht.trans hq)

/-- An operand of accumulator mode is the accumulator (R57). -/
theorem operand_of_mode_ACC {i : Instr} (h : i.mode = .ACC) : i.operand = .acc := by
  rw [← operand_mode] at h
  cases ho : i.operand with
  | acc => rfl
  | _ => simp [ho, Operand.mode] at h

/-- Every row of accumulator mode takes 2 cycles (R62). -/
theorem baseCycles_of_mode_ACC {i : Instr} (h : i.mode = .ACC) : i.entry.baseCycles = 2 := by
  have table : (i.mode == .ACC && i.entry.baseCycles != 2) = false := by cases i <;> rfl
  simpa [h] using table

/-- Outside immediate mode the memory operand is the byte at the effective address (R67). -/
theorem memOperand_eq_byteAt {i : Instr} (h : i.mode ≠ .IMM) (s : State) :
    memOperand i s = (resolve i s).byteAt (effectiveAddress i.operand s) := by
  rw [← operand_mode] at h
  unfold memOperand
  cases ho : i.operand with
  | imm b => simp [ho, Operand.mode] at h
  | _ => simp [resolve_byteAt, ho]

section
variable {i : Instr} {f : Byte → Byte → ModifyResult} {s t : State}

theorem semantics_of_modify (h : (i.mnemonic, f) ∈ modifyOps) (r : State) :
    semantics i r = modify i.operand f r := by
  rcases mem_modifyOps_iff.mp h with
    ⟨hm, rfl⟩ | ⟨hm, rfl⟩ | ⟨hm, rfl⟩ | ⟨hm, rfl⟩ | ⟨hm, rfl⟩ | ⟨hm, rfl⟩ <;> rw [semantics, hm]

theorem mem_modifyMnemonics (h : (i.mnemonic, f) ∈ modifyOps) : i.mnemonic ∈ modifyMnemonics := by
  have table : ∀ p ∈ modifyOps, p.1 ∈ modifyMnemonics := by decide
  exact table _ h

/-- A read-modify-write goes on to the next instruction and never pays the page penalty (R80). -/
theorem exec_of_modify_sequential (h : i.mnemonic ∈ modifyMnemonics) (ht : exec i s = .next t) :
    t.pc = nextPc i s ∧ t.pending = i.entry.baseCycles := by
  have table : ∀ m ∈ modifyMnemonics, m ∉ [Mnemonic.JMP, .JSR, .RTS, .RTI, .BRK] ∧
      branchTest m = none ∧ paysPagePenalty m = false := by decide
  obtain ⟨hjump, hbranch, hpays⟩ := table _ h
  obtain ⟨hpc, hpending⟩ := exec_sequential ht hjump hbranch
  rw [resolverExtra_of_not_pays hpays, Nat.add_zero] at hpending
  exact ⟨hpc, hpending⟩

/-- On the accumulator a read-modify-write makes its byte and P of A and P. -/
theorem exec_of_modify_acc (h : (i.mnemonic, f) ∈ modifyOps) (hacc : i.mode = .ACC)
    (ht : exec i s = .next t) : t.a = (f s.a s.p).value ∧ t.p = (f s.a s.p).p := by
  rw [eq_of_exec ht, semantics_of_modify h, modify_acc _ _ _ (operand_of_mode_ACC hacc)]
  simp

/-- No read-modify-write has the immediate mode (R48, R62). -/
theorem mode_ne_IMM_of_modify (h : i.mnemonic ∈ modifyMnemonics) : i.mode ≠ .IMM := by
  have table : (modifyMnemonics.contains i.mnemonic && i.mode == .IMM) = false := by
    cases i <;> rfl
  simpa [h] using table

/-- On memory a read-modify-write replaces its operand by the byte it makes of it and P. -/
theorem exec_of_modify_memory (h : (i.mnemonic, f) ∈ modifyOps) (hacc : i.mode ≠ .ACC)
    (hw : s.mem.wf = true) (ht : exec i s = .next t) :
    t.p = (f (memOperand i s) s.p).p ∧
    ModifiesOperand i s t (f (memOperand i s) s.p).value := by
  have hmod := mem_modifyMnemonics h
  have hsem := semantics_of_modify h (resolve i s)
  rw [modify_mem _ _ _ (by rwa [operand_mode])
      (by rw [operand_mode]; exact mode_ne_IMP_of_modify hmod),
    resolve_ea, resolve_p, ← memOperand_eq_byteAt (mode_ne_IMM_of_modify hmod)] at hsem
  rw [eq_of_exec ht, hsem]
  refine ⟨rfl, ?_, fun hb => ?_⟩
  · simp [memOperand_eq_byteAt (mode_ne_IMM_of_modify hmod)]
  · rw [State.setPending_byteAt, State.setP_byteAt]
    exact memWrite_byteAt_same _ _ _ (by simpa using hb) (by simpa using hw)

/-- A read-modify-write writes no register but A, and A only in accumulator mode (R15, R18). -/
theorem writesReg_of_modify {r : Reg} (h : i.mnemonic ∈ modifyMnemonics)
    (hr : writesReg r i = true) : r = .A ∧ i.mode = .ACC := by
  have table : (modifyMnemonics.contains i.mnemonic && writesReg r i &&
      !(r == .A && i.mode == .ACC)) = false := by
    cases r <;> cases i <;> rfl
  simpa [h, hr] using table

/-- A read-modify-write changes A or its effective address, as its mode says, and the flags of its
mnemonic. -/
theorem exec_of_modify_frame {fs : List Flag} (h : i.mnemonic ∈ modifyMnemonics)
    (hfs : ∀ g, i.mnemonic ∈ flagWriters g → g ∈ fs) (ht : exec i s = .next t) :
    Frame s t (if i.mode = .ACC then [.A] else []) fs
      (if i.mode = .ACC then [] else [effectiveAddress i.operand s]) := by
  refine exec_frame ht (fun r hr => ?_) hfs (storeAddrs_of_modify h s)
  obtain ⟨rfl, hacc⟩ := writesReg_of_modify h hr
  rw [if_pos hacc]
  exact List.mem_cons_self

end

/-! ### Shifts and rotates (R102 to R106) -/

section
variable (v p : Byte)

/-- Bit by bit, ASL shifts left and takes 0 into bit 0 (R103). -/
theorem aslByte_bits (k : Nat) (hk : k < 8) :
    (aslByte v p).value.getLsbD k = (decide (0 < k) && v.getLsbD (k - 1)) := by
  rw [aslByte_value, BitVec.getLsbD_shiftLeft]
  cases k <;> simp [hk]

/-- Bit by bit, LSR shifts right; bit 7 takes the 0 beyond the operand (R104). -/
theorem lsrByte_bits (k : Nat) : (lsrByte v p).value.getLsbD k = v.getLsbD (k + 1) := by
  rw [lsrByte_value, BitVec.getLsbD_ushiftRight, Nat.add_comm]

theorem aslByte_shiftsTo :
    ShiftsTo .ASL v (aslByte v p).value (getFlag p .C) (getFlag (aslByte v p).p .C) :=
  ⟨aslByte_bits v p, by simp⟩

theorem lsrByte_shiftsTo :
    ShiftsTo .LSR v (lsrByte v p).value (getFlag p .C) (getFlag (lsrByte v p).p .C) :=
  ⟨fun k _ => lsrByte_bits v p k, by simp⟩

theorem rolByte_shiftsTo :
    ShiftsTo .ROL v (rolByte v p).value (getFlag p .C) (getFlag (rolByte v p).p .C) :=
  ⟨rolByte_bits v p, by simp⟩

theorem rorByte_shiftsTo :
    ShiftsTo .ROR v (rorByte v p).value (getFlag p .C) (getFlag (rorByte v p).p .C) :=
  ⟨rorByte_bits v p, by simp⟩

end

/-- Each shift mnemonic is the read-modify-write of an operation that makes the byte and the carry of
its rule (R103 to R106). -/
theorem exists_shift {m : Mnemonic} (h : m ∈ [Mnemonic.ASL, .LSR, .ROL, .ROR]) :
    ∃ f, (m, f) ∈ modifyOps ∧
      ∀ v p, ShiftsTo m v (f v p).value (getFlag p .C) (getFlag (f v p).p .C) := by
  simp only [List.mem_cons, List.not_mem_nil, or_false] at h
  rcases h with rfl | rfl | rfl | rfl
  · exact ⟨aslByte, by simp [modifyOps], aslByte_shiftsTo⟩
  · exact ⟨lsrByte, by simp [modifyOps], lsrByte_shiftsTo⟩
  · exact ⟨rolByte, by simp [modifyOps], rolByte_shiftsTo⟩
  · exact ⟨rorByte, by simp [modifyOps], rorByte_shiftsTo⟩

/-- A shift writes A or its effective address, and N, Z and C (R20 to R27). -/
theorem exec_of_shift_frame {i : Instr} {s t : State}
    (h : i.mnemonic ∈ [Mnemonic.ASL, .LSR, .ROL, .ROR]) (ht : exec i s = .next t) :
    Frame s t (if i.mode = .ACC then [.A] else []) [.N, .Z, .C]
      (if i.mode = .ACC then [] else [effectiveAddress i.operand s]) := by
  have hmod : ∀ m ∈ [Mnemonic.ASL, .LSR, .ROL, .ROR], m ∈ modifyMnemonics := by decide
  refine exec_of_modify_frame (hmod _ h) (fun g hg => ?_) ht
  have table : ∀ m ∈ [Mnemonic.ASL, .LSR, .ROL, .ROR], m ∈ flagWriters g →
      g ∈ [Flag.N, .Z, .C] := by cases g <;> decide
  exact table _ h hg

/-- Settles O37: a shift on A is its operation on bytes, applied to A and P. -/
theorem shiftsOnAccumulator : Obligations.ShiftsOnAccumulator := by
  intro i s h hacc
  have ht := exec_eq i s
  obtain ⟨f, hf, hshift⟩ := exists_shift h
  obtain ⟨ha, hp⟩ := exec_of_modify_acc hf hacc ht
  obtain ⟨hpc, hpending⟩ := exec_of_modify_sequential (mem_modifyMnemonics hf) ht
  have hframe := exec_of_shift_frame h ht
  rw [if_pos hacc, if_pos hacc] at hframe
  rw [baseCycles_of_mode_ACC hacc] at hpending
  refine ⟨_, ht, ?_, ?_, hpc, hpending, hframe⟩
  · rw [State.flag, State.flag, ha, hp]
    exact hshift s.a s.p
  · rw [ha]
    exact flagsFollow_of_modifyOps hf hp

/-- Settles O38: a shift on memory is its operation on bytes, applied to the operand and P. -/
theorem shiftsOnMemory : Obligations.ShiftsOnMemory := by
  intro i s h hacc hw
  have ht := exec_eq i s
  obtain ⟨f, hf, hshift⟩ := exists_shift h
  obtain ⟨hp, hmodifies⟩ := exec_of_modify_memory hf hacc hw ht
  obtain ⟨hpc, hpending⟩ := exec_of_modify_sequential (mem_modifyMnemonics hf) ht
  have hframe := exec_of_shift_frame h ht
  rw [if_neg hacc, if_neg hacc] at hframe
  refine ⟨_, ht, _, ?_, flagsFollow_of_modifyOps hf hp, hmodifies, hpc, hpending, hframe⟩
  rw [State.flag, State.flag, hp]
  exact hshift (memOperand i s) s.p

end Sys2Proof.Machine
end

section
/-! Family `44_incdec_transfer_flags.md` (R107 to R125): INC and DEC as read-modify-writes of memory;
the instructions on registers and flags, which take one byte and two cycles and store nothing; and
among these one rule for those that write a register with `SetNZ`, and one for those that write a
flag. -/

namespace Sys2Proof.Machine

/-! ### INC and DEC (R107, R108) -/

/-- Subtracting 1 from a byte wraps as adding 255 does (R108). -/
theorem byte_pred_toNat (b : Byte) : (b - 1).toNat = (b.toNat + 255) % 256 := by
  rw [BitVec.toNat_sub, Nat.add_comm]
  rfl

/-- INC and DEC have no accumulator form (R62). -/
theorem mode_ne_ACC_of_incDec {i : Instr} (h : i.mnemonic ∈ [Mnemonic.INC, .DEC]) :
    i.mode ≠ .ACC := by
  have table : ([Mnemonic.INC, .DEC].contains i.mnemonic && i.mode == .ACC) = false := by
    cases i <;> rfl
  simpa [h] using table

/-- INC and DEC write N and Z and their effective address, and no register. -/
theorem exec_of_incDec_frame {i : Instr} {s t : State} (h : i.mnemonic ∈ [Mnemonic.INC, .DEC])
    (ht : exec i s = .next t) : Frame s t [] [.N, .Z] [effectiveAddress i.operand s] := by
  have hmod : ∀ m ∈ [Mnemonic.INC, .DEC], m ∈ modifyMnemonics := by decide
  have hflags : ∀ g, ∀ m ∈ [Mnemonic.INC, .DEC], m ∈ flagWriters g → g ∈ [Flag.N, .Z] := by
    intro g
    cases g <;> decide
  have hframe := exec_of_modify_frame (hmod _ h) (fun g => hflags g _ h) ht
  rwa [if_neg (mode_ne_ACC_of_incDec h), if_neg (mode_ne_ACC_of_incDec h)] at hframe

/-- INC and DEC complete with the operand replaced by the byte `k` above it modulo 256, for the `k`
of their operation on bytes. -/
theorem exec_of_incDec {i : Instr} {f : Byte → Byte → ModifyResult} {k : Nat} {s : State}
    (h : i.mnemonic ∈ [Mnemonic.INC, .DEC]) (hf : (i.mnemonic, f) ∈ modifyOps)
    (hk : ∀ v p, (f v p).value.toNat = (v.toNat + k) % 256) (hw : s.mem.wf = true) :
    Answers (exec i s) fun t => ∃ r : Byte,
      r.toNat = ((memOperand i s).toNat + k) % 256 ∧
      FlagsFollow t r ∧ ModifiesOperand i s t r ∧ t.pc = nextPc i s ∧
      t.pending = i.entry.baseCycles ∧ Frame s t [] [.N, .Z] [effectiveAddress i.operand s] := by
  have ht := exec_eq i s
  obtain ⟨hp, hmodifies⟩ := exec_of_modify_memory hf (mode_ne_ACC_of_incDec h) hw ht
  obtain ⟨hpc, hpending⟩ := exec_of_modify_sequential (mem_modifyMnemonics hf) ht
  exact ⟨_, ht, _, hk _ _, flagsFollow_of_modifyOps hf hp, hmodifies, hpc, hpending,
    exec_of_incDec_frame h ht⟩

/-- Settles O39: INC adds 1 to its operand, and DEC 255. -/
theorem incrementDecrementMemory : Obligations.IncrementDecrementMemory := fun _ _ hw =>
  ⟨fun h => exec_of_incDec (f := incByte) (by rw [h]; decide) (by rw [h]; simp [modifyOps])
      (fun v _ => byte_succ_toNat v) hw,
    fun h => exec_of_incDec (f := decByte) (by rw [h]; decide) (by rw [h]; simp [modifyOps])
      (fun v _ => byte_pred_toNat v) hw⟩

/-! ### Instructions on registers and flags (R109 to R125) -/

/-- The instructions that work on registers and flags alone (R109 to R125). -/
def registerInstrs : List Instr :=
  [.inx, .iny, .dex, .dey, .tax, .tay, .txa, .tya, .tsx, .txs,
   .clc, .sec, .cli, .sei, .cld, .sed, .clv]

theorem storeAddrs_of_registerInstrs {i : Instr} (h : i ∈ registerInstrs) (s : State) :
    storeAddrs i s = [] := by
  have table : (registerInstrs.all fun i => (storeAddrs i s).isEmpty) = true := rfl
  exact List.isEmpty_iff.mp (List.all_eq_true.mp table i h)

/-- An instruction on registers and flags is one byte long, takes 2 cycles and changes only what the
tables of R15 to R27 name for it. -/
theorem exec_of_registerInstrs {i : Instr} {s t : State} {rs : List Reg} {fs : List Flag}
    (h : i ∈ registerInstrs) (ht : exec i s = .next t) (hr : ∀ r, writesReg r i = true → r ∈ rs)
    (hf : ∀ f, i.mnemonic ∈ flagWriters f → f ∈ fs) :
    t.pc = s.pc + 1 ∧ t.pending = 2 ∧ Frame s t rs fs [] := by
  have table : ∀ i ∈ registerInstrs, i.length = 1 ∧ i.entry.baseCycles = 2 ∧
      i.mnemonic ∉ [Mnemonic.JMP, .JSR, .RTS, .RTI, .BRK] ∧ branchTest i.mnemonic = none ∧
      paysPagePenalty i.mnemonic = false := by decide
  obtain ⟨hlength, hcycles, hjump, hbranch, hpays⟩ := table i h
  obtain ⟨hpc, hpending⟩ := exec_sequential ht hjump hbranch
  rw [nextPc, hlength] at hpc
  rw [resolverExtra_of_not_pays hpays, hcycles] at hpending
  exact ⟨hpc, hpending, exec_frame ht hr hf (storeAddrs_of_registerInstrs h s)⟩

/-! ### Register to register, with N and Z (R109 to R117) -/

/-- The instructions that set a register and N and Z from a register: the register written, the
operation on bytes and the register read (D19). -/
def registerOps : List (Instr × Reg × (Byte → Byte) × Reg) :=
  [(.inx, .X, (· + 1), .X), (.iny, .Y, (· + 1), .Y), (.dex, .X, (· - 1), .X),
   (.dey, .Y, (· - 1), .Y), (.tax, .X, id, .A), (.tay, .Y, id, .A), (.txa, .A, id, .X),
   (.tya, .A, id, .Y), (.tsx, .X, id, .SP)]

section
variable {i : Instr} {d r : Reg} {op : Byte → Byte}

/-- Such an instruction puts the operation's byte in its register and runs `SetNZ` on it. -/
theorem semantics_of_registerOps (h : (i, d, op, r) ∈ registerOps) (s : State) :
    (semantics i s).reg d = op (s.reg r) ∧ (semantics i s).p = setNZ s.p (op (s.reg r)) := by
  simp only [registerOps, List.mem_cons, Prod.mk.injEq, List.not_mem_nil, or_false] at h
  rcases h with ⟨rfl, rfl, rfl, rfl⟩ | ⟨rfl, rfl, rfl, rfl⟩ | ⟨rfl, rfl, rfl, rfl⟩ |
    ⟨rfl, rfl, rfl, rfl⟩ | ⟨rfl, rfl, rfl, rfl⟩ | ⟨rfl, rfl, rfl, rfl⟩ | ⟨rfl, rfl, rfl, rfl⟩ |
    ⟨rfl, rfl, rfl, rfl⟩ | ⟨rfl, rfl, rfl, rfl⟩ <;> exact ⟨rfl, rfl⟩

/-- Such an instruction writes its register, N and Z, and no memory. -/
theorem exec_of_registerOps_frame {s t : State} (h : (i, d, op, r) ∈ registerOps)
    (ht : exec i s = .next t) :
    t.pc = s.pc + 1 ∧ t.pending = 2 ∧ Frame s t [d] [.N, .Z] [] := by
  refine exec_of_registerInstrs ?_ ht (fun q hq => ?_) (fun f hf => ?_)
  · have table : ∀ p ∈ registerOps, p.1 ∈ registerInstrs := by decide
    exact table _ h
  · have table : ∀ p ∈ registerOps, writesReg q p.1 = true → q ∈ [p.2.1] := by cases q <;> decide
    exact table _ h hq
  · have table : ∀ p ∈ registerOps, p.1.mnemonic ∈ flagWriters f → f ∈ [Flag.N, .Z] := by
      cases f <;> decide
    exact table _ h hf

theorem exec_of_registerOps (h : (i, d, op, r) ∈ registerOps) (s : State) :
    Answers (exec i s) fun t =>
      t.reg d = op (s.reg r) ∧ FlagsFollow t (op (s.reg r)) ∧ t.pc = s.pc + 1 ∧
      t.pending = 2 ∧ Frame s t [d] [.N, .Z] [] := by
  have ht := exec_eq i s
  obtain ⟨hreg, hp⟩ := semantics_of_registerOps h (resolve i s)
  rw [resolve_reg] at hreg hp
  refine ⟨_, ht, ?_, flagsFollow_of_setNZ hp, exec_of_registerOps_frame h ht⟩
  rw [State.setPending_reg, hreg]

/-- When the operation adds `k` modulo 256, the register goes up by `k` modulo 256, and N and Z
follow it. -/
theorem exec_of_registerOps_add {k : Nat} (h : (i, d, op, r) ∈ registerOps)
    (hk : ∀ v, (op v).toNat = (v.toNat + k) % 256) (s : State) :
    Answers (exec i s) fun t =>
      (t.reg d).toNat = ((s.reg r).toNat + k) % 256 ∧ FlagsFollow t (t.reg d) ∧
      t.pc = s.pc + 1 ∧ t.pending = 2 ∧ Frame s t [d] [.N, .Z] [] := by
  obtain ⟨t, ht, hreg, hflags, hrest⟩ := exec_of_registerOps h s
  rw [← hreg] at hflags
  exact ⟨t, ht, hreg ▸ hk _, hflags, hrest⟩

end

/-- Settles O40: INX and INY add 1 to their register, DEX and DEY 255. -/
theorem incrementDecrementRegisters : Obligations.IncrementDecrementRegisters := fun s =>
  ⟨exec_of_registerOps_add (i := .inx) (d := .X) (r := .X) (by simp [registerOps]) byte_succ_toNat s,
    exec_of_registerOps_add (i := .iny) (d := .Y) (r := .Y) (by simp [registerOps]) byte_succ_toNat s,
    exec_of_registerOps_add (i := .dex) (d := .X) (r := .X) (by simp [registerOps]) byte_pred_toNat s,
    exec_of_registerOps_add (i := .dey) (d := .Y) (r := .Y) (by simp [registerOps]) byte_pred_toNat s⟩

/-- TXS copies X to SP and writes no flag (R118, D18). -/
theorem exec_of_txs (s : State) :
    Answers (exec .txs s) fun t =>
      t.sp = s.x ∧ t.pc = s.pc + 1 ∧ t.pending = 2 ∧ Frame s t [.SP] [] [] := by
  have ht := exec_eq .txs s
  refine ⟨_, ht, rfl, exec_of_registerInstrs (by decide) ht (fun r => ?_) (fun f => ?_)⟩
  · cases r <;> decide
  · cases f <;> decide

/-- Settles O41: five transfers are the identity on bytes, with N and Z; TXS is the sixth. -/
theorem transfersCopyRegisters : Obligations.TransfersCopyRegisters := fun s =>
  ⟨exec_of_registerOps (i := .tax) (d := .X) (op := id) (r := .A) (by simp [registerOps]) s,
    exec_of_registerOps (i := .tay) (d := .Y) (op := id) (r := .A) (by simp [registerOps]) s,
    exec_of_registerOps (i := .txa) (d := .A) (op := id) (r := .X) (by simp [registerOps]) s,
    exec_of_registerOps (i := .tya) (d := .A) (op := id) (r := .Y) (by simp [registerOps]) s,
    exec_of_registerOps (i := .tsx) (d := .X) (op := id) (r := .SP) (by simp [registerOps]) s,
    exec_of_txs s⟩

/-! ### The flag instructions (R119 to R125) -/

/-- The flag instructions, each with the flag it writes and the value (D19). -/
def flagInstrs : List (Instr × Flag × Bool) :=
  [(.clc, .C, false), (.sec, .C, true), (.cli, .I, false), (.sei, .I, true), (.cld, .D, false),
   (.sed, .D, true), (.clv, .V, false)]

section
variable {q : Instr × Flag × Bool}

theorem semantics_of_flagInstrs (h : q ∈ flagInstrs) (s : State) :
    semantics q.1 s = s.setFlag q.2.1 q.2.2 := by
  simp only [flagInstrs, List.mem_cons, List.not_mem_nil, or_false] at h
  rcases h with rfl | rfl | rfl | rfl | rfl | rfl | rfl <;> rfl

/-- A flag instruction writes its flag, no register and no memory. -/
theorem exec_of_flagInstrs_frame {s t : State} (h : q ∈ flagInstrs) (ht : exec q.1 s = .next t) :
    t.pc = s.pc + 1 ∧ t.pending = 2 ∧ Frame s t [] [q.2.1] [] := by
  refine exec_of_registerInstrs ?_ ht (fun r hr => ?_) (fun f hf => ?_)
  · have table : ∀ q ∈ flagInstrs, q.1 ∈ registerInstrs := by decide
    exact table _ h
  · have table : ∀ q ∈ flagInstrs, writesReg r q.1 = true → r ∈ ([] : List Reg) := by
      cases r <;> decide
    exact table _ h hr
  · have table : ∀ q ∈ flagInstrs, q.1.mnemonic ∈ flagWriters f → f ∈ [q.2.1] := by
      cases f <;> decide
    exact table _ h hf

end

/-- Settles O42: each is `setFlag` of its flag and value. -/
theorem flagInstructionsWriteOneFlag : Obligations.FlagInstructionsWriteOneFlag := by
  intro s q (h : q ∈ flagInstrs)
  have ht := exec_eq q.1 s
  refine ⟨_, ht, ?_, exec_of_flagInstrs_frame h ht⟩
  rw [State.setPending_flag, semantics_of_flagInstrs h]
  simp [State.flag]

end Sys2Proof.Machine
end

section
/-! Family `45_stack.md` (R126 to R129): what every implied instruction that does not jump has in
common; one rule for the two pushes and one for the two pulls; and PLP after PHP as the one after the
other. -/

namespace Sys2Proof.Machine

/-! ### Implied instructions (R68) -/

theorem operand_of_mode_IMP {i : Instr} (h : i.mode = .IMP) : i.operand = .imp := by
  rw [← operand_mode] at h
  cases ho : i.operand with
  | imp => rfl
  | _ => simp [ho, Operand.mode] at h

/-- No branch is implied (R62). -/
theorem branchTest_of_mode_IMP {i : Instr} (h : i.mode = .IMP) : branchTest i.mnemonic = none := by
  have table : (i.mode == .IMP && (branchTest i.mnemonic).isSome) = false := by cases i <;> rfl
  simpa [h] using table

/-- The resolver of an implied instruction makes no access: the record is as it was (R68). -/
theorem resolve_accesses_of_mode_IMP {i : Instr} (h : i.mode = .IMP) (s : State) :
    (resolve i s).accesses = s.accesses := by
  rw [resolve_accesses, operand_of_mode_IMP h]
  rfl

/-- The resolver of an implied instruction makes no access: every byte reads as it did (R68). -/
theorem resolve_byteAt_of_mode_IMP {i : Instr} (h : i.mode = .IMP) (s : State) (a : Addr) :
    (resolve i s).byteAt a = s.byteAt a := by
  rw [resolve_byteAt, operand_of_mode_IMP h]
  rfl

/-- An implied instruction that does not jump is one byte long and takes its base cycles. -/
theorem exec_of_mode_IMP {i : Instr} {s t : State} (h : i.mode = .IMP)
    (hm : i.mnemonic ∉ [Mnemonic.JMP, .JSR, .RTS, .RTI, .BRK]) (ht : exec i s = .next t) :
    t.pc = s.pc + 1 ∧ t.pending = i.entry.baseCycles := by
  have hcrossed : pageCrossed i.operand s = false := by rw [operand_of_mode_IMP h]; rfl
  obtain ⟨hpc, hpending⟩ := exec_sequential ht hm (branchTest_of_mode_IMP h)
  rw [nextPc, Instr.length, h] at hpc
  rw [resolverExtra_of_not_crossed hcrossed, Nat.add_zero] at hpending
  exact ⟨hpc, hpending⟩

/-! ### PHA and PHP (R126, R127) -/

/-- A push instruction writes SP and its stack slot, and no flag. -/
theorem exec_of_push_frame {i : Instr} {s t : State} (h : i ∈ [Instr.pha, .php])
    (ht : exec i s = .next t) : Frame s t [.SP] [] [stackAddr s.sp] := by
  refine exec_frame ht (fun r hr => ?_) (fun f hf => ?_) ?_
  · have table : ∀ i ∈ [Instr.pha, .php], writesReg r i = true → r ∈ [Reg.SP] := by
      cases r <;> decide
    exact table i h hr
  · have table : ∀ i ∈ [Instr.pha, .php], i.mnemonic ∉ flagWriters f := by cases f <;> decide
    exact absurd hf (table i h)
  · have table : ∀ i ∈ [Instr.pha, .php], i.mnemonic = .PHA ∨ i.mnemonic = .PHP := by decide
    rcases table i h with hm | hm <;> rw [storeAddrs, hm]

/-- An instruction that pushes `v` completes with `v` in the slot SP named, and P as it was. -/
theorem exec_of_push {i : Instr} {v : Byte} {s : State} (h : i ∈ [Instr.pha, .php])
    (hv : semantics i (resolve i s) = push v (resolve i s)) (hw : s.mem.wf = true) :
    Answers (exec i s) fun t =>
      t.accesses = s.accesses ++ [.write (stackAddr s.sp) v] ∧
      (s.bus = Bus.ram → t.byteAt (stackAddr s.sp) = v) ∧ t.sp = s.sp - 1 ∧
      t.p = s.p ∧ t.pc = s.pc + 1 ∧ t.pending = 3 ∧ Frame s t [.SP] [] [stackAddr s.sp] := by
  have table : ∀ i ∈ [Instr.pha, .php], i.mode = .IMP ∧
      i.mnemonic ∉ [Mnemonic.JMP, .JSR, .RTS, .RTI, .BRK] ∧ i.entry.baseCycles = 3 := by decide
  obtain ⟨himp, hjump, hcycles⟩ := table i h
  have ht := exec_eq i s
  obtain ⟨hpc, hpending⟩ := exec_of_mode_IMP himp hjump ht
  refine ⟨_, ht, ?_, fun hb => ?_, ?_, ?_, hpc, hpending.trans hcycles, exec_of_push_frame h ht⟩
  · rw [State.setPending_accesses, hv, push_accesses, resolve_accesses_of_mode_IMP himp, resolve_sp]
  · rw [State.setPending_byteAt, hv, ← resolve_sp i s]
    exact push_byteAt_same v _ (by rwa [resolve_bus]) (by rwa [resolve_mem])
  · rw [State.setPending_sp, hv, push_sp, resolve_sp]
  · rw [State.setPending_p, hv, push_p, resolve_p]

/-- PHP pushes P with B and U as 1 (R127). -/
theorem exec_of_php {s : State} (hw : s.mem.wf = true) :
    Answers (exec .php s) fun t =>
      t.accesses = s.accesses ++ [.write (stackAddr s.sp) (s.p ||| 0x30)] ∧
      (s.bus = Bus.ram → t.byteAt (stackAddr s.sp) = s.p ||| 0x30) ∧ t.sp = s.sp - 1 ∧
      t.p = s.p ∧ t.pc = s.pc + 1 ∧ t.pending = 3 ∧ Frame s t [.SP] [] [stackAddr s.sp] :=
  exec_of_push (by decide) (congrArg (push · (resolve .php s)) (pushedP_true s.p)) hw

/-- Settles O43: each pushes its byte, and PHA keeps P as PHP does. -/
theorem pushInstructions : Obligations.PushInstructions := by
  refine ⟨rfl, rfl, fun s hw => ⟨?_, exec_of_php hw⟩⟩
  obtain ⟨t, ht, haccesses, hbyte, hsp, -, hrest⟩ :=
    exec_of_push (i := .pha) (v := s.a) (by decide) rfl hw
  exact ⟨t, ht, haccesses, hbyte, hsp, hrest⟩

/-! ### PLA and PLP (R128, R129) -/

/-- After the resolver of an implied instruction, a pull returns the byte above SP. -/
theorem pull_resolve_fst {i : Instr} (h : i.mode = .IMP) (s : State) :
    (pull (resolve i s)).1 = s.byteAt (stackAddr (s.sp + 1)) := by
  rw [pull_fst, resolve_sp, resolve_byteAt_of_mode_IMP h]

/-- A pull instruction takes SP up by one, goes on to the next instruction and takes 4 cycles. -/
theorem exec_of_pull {i : Instr} {s t : State} (h : i ∈ [Instr.pla, .plp])
    (hsp : (semantics i (resolve i s)).sp = (pull (resolve i s)).2.sp) (ht : exec i s = .next t) :
    t.sp = s.sp + 1 ∧ t.pc = s.pc + 1 ∧ t.pending = 4 := by
  have table : ∀ i ∈ [Instr.pla, .plp], i.mode = .IMP ∧
      i.mnemonic ∉ [Mnemonic.JMP, .JSR, .RTS, .RTI, .BRK] ∧ i.entry.baseCycles = 4 := by decide
  obtain ⟨himp, hjump, hcycles⟩ := table i h
  obtain ⟨hpc, hpending⟩ := exec_of_mode_IMP himp hjump ht
  refine ⟨?_, hpc, hpending.trans hcycles⟩
  rw [eq_of_exec ht, State.setPending_sp, hsp, pull_sp, resolve_sp]

theorem exec_of_pla (s : State) :
    Answers (exec .pla s) fun t => t.a = s.byteAt (stackAddr (s.sp + 1)) ∧ FlagsFollow t t.a ∧
      t.sp = s.sp + 1 ∧ t.pc = s.pc + 1 ∧ t.pending = 4 ∧ Frame s t [.A, .SP] [.N, .Z] [] := by
  have ht := exec_eq .pla s
  obtain ⟨hsp, hpc, hpending⟩ := exec_of_pull (by decide) rfl ht
  refine ⟨_, ht, pull_resolve_fst rfl s, flagsFollow_of_setNZ rfl, hsp, hpc, hpending,
    exec_frame ht (fun r => ?_) (fun f => ?_) rfl⟩
  · cases r <;> decide
  · cases f <;> decide

theorem exec_of_plp (s : State) :
    Answers (exec .plp s) fun t => t.p = s.byteAt (stackAddr (s.sp + 1)) ||| 0x20 ∧
      t.sp = s.sp + 1 ∧ t.pc = s.pc + 1 ∧ t.pending = 4 ∧ Frame s t [.SP] allFlags [] := by
  have ht := exec_eq .plp s
  obtain ⟨hsp, hpc, hpending⟩ := exec_of_pull (by decide) rfl ht
  refine ⟨_, ht, congrArg loadP (pull_resolve_fst rfl s), hsp, hpc, hpending,
    exec_frame ht (fun r => ?_) (fun f => ?_) rfl⟩
  · cases r <;> decide
  · cases f <;> decide

/-- Settles O44: each pulls the byte above SP, PLA with the flags of a load and PLP by `LoadP`. -/
theorem pullInstructions : Obligations.PullInstructions := fun s => ⟨exec_of_pla s, exec_of_plp s⟩

/-! ### PLP after PHP (R127, R129) -/

/-- Settles O45: PLP pulls the byte PHP left in its slot, where U is 1 already. -/
theorem plpAfterPhp : Obligations.PlpAfterPhp := by
  intro s t u hb hw ht husp hubyte
  obtain ⟨t', ht', -, hbyte, hsp, -⟩ := exec_of_php hw
  obtain rfl : t' = t := Host.Outcome.next.inj (ht'.symm.trans ht)
  have htop : u.sp + 1 = s.sp := by rw [husp, hsp, BitVec.sub_add_cancel]
  obtain ⟨v, hv, hvp, hvsp, -⟩ := exec_of_plp u
  refine ⟨v, hv, ?_, hvsp.trans htop⟩
  calc v.p = u.byteAt (stackAddr s.sp) ||| 0x20 := by rw [hvp, htop]
    _ = s.p ||| 0x30 ||| 0x20 := by rw [hubyte, hbyte hb]
    _ = s.p ||| 0x30 := BitVec.or_assoc _ _ _

end Sys2Proof.Machine
end

section
/-! Family `46_control.md` (R130 to R142): one rule for a branch taken and one for a branch not taken,
the eight branches being rows of one table; one rule for the two jumps; JSR by the two pushes of a
word, RTS by its two pulls, and RTS after JSR as the one after the other. -/

namespace Sys2Proof.Machine

/-! ### Instructions that write PC and nothing else (R130, R140) -/

/-- The mnemonics of the branches and jumps. -/
def pcOnlyMnemonics : List Mnemonic := [.BCC, .BCS, .BEQ, .BNE, .BMI, .BPL, .BVC, .BVS, .JMP]

theorem not_writesReg_of_pcOnly {i : Instr} (h : i.mnemonic ∈ pcOnlyMnemonics) (r : Reg) :
    writesReg r i = false := by
  have table : (pcOnlyMnemonics.contains i.mnemonic && writesReg r i) = false := by
    cases r <;> cases i <;> rfl
  simpa [h] using table

theorem storeAddrs_of_pcOnly {i : Instr} (h : i.mnemonic ∈ pcOnlyMnemonics) (s : State) :
    storeAddrs i s = [] := by
  have table : (pcOnlyMnemonics.contains i.mnemonic && !(storeAddrs i s).isEmpty) = false := by
    cases i <;> rfl
  simpa [h] using table

/-- A branch or jump writes no register, no flag and no memory. -/
theorem exec_of_pcOnly_frame {i : Instr} {s t : State} (h : i.mnemonic ∈ pcOnlyMnemonics)
    (ht : exec i s = .next t) : Frame s t [] [] [] := by
  refine exec_frame ht (fun r hr => ?_) (fun f hf => ?_) (storeAddrs_of_pcOnly h s)
  · rw [not_writesReg_of_pcOnly h] at hr
    exact absurd hr Bool.false_ne_true
  · have table : ∀ m ∈ pcOnlyMnemonics, m ∉ flagWriters f := by cases f <;> decide
    exact absurd hf (table _ h)

/-- An instruction that is no branch and whose mode crosses no page takes its base cycles (R149). -/
theorem cyclesOf_of_not_crossed {i : Instr} {s : State} (hb : branchTest i.mnemonic = none)
    (hc : pageCrossed i.operand s = false) : cyclesOf i s = i.entry.baseCycles := by
  rw [cyclesOf, branchCycles_of_not_branch hb, resolverExtra_of_not_crossed hc,
    Nat.add_zero]

/-! ### A branch, taken or not (R130, R131) -/

section
variable {i : Instr} {s t : State} {x : Flag × Bool}

theorem semantics_of_branch (h : branchTest i.mnemonic = some x) (r : State) :
    semantics i r = branchOrStay i r := by
  rw [semantics]
  cases hm : i.mnemonic with
  | BCC | BCS | BEQ | BNE | BMI | BPL | BVC | BVS => rfl
  | _ => simp [hm, branchTest] at h

theorem branchTaken_iff (h : branchTest i.mnemonic = some x) :
    branchTaken i s = true ↔ s.flag x.1 = x.2 := by
  rw [branchTaken, h, decide_eq_true_iff]

/-- A branch is charged its base cycles and those of R130: it never pays for the resolver (R80). -/
theorem cyclesOf_of_branch (h : branchTest i.mnemonic = some x) :
    cyclesOf i s = i.entry.baseCycles + branchCycles i s := by
  rw [cyclesOf, resolverExtra_of_not_pays (not_pays_of_branch h), Nat.add_zero]

/-- A branch not taken goes on to the next instruction, in its base cycles. -/
theorem exec_of_branch_not_taken (h : branchTest i.mnemonic = some x) (hn : branchTaken i s = false)
    (ht : exec i s = .next t) : t.pc = nextPc i s ∧ t.pending = i.entry.baseCycles := by
  rw [eq_of_exec ht, State.setPending_pc, State.setPending_pending, semantics_of_branch h,
    branchOrStay, branchTaken_resolve, cyclesOf_of_branch h, branchCycles_eq, hn]
  exact ⟨rfl, rfl⟩

/-- A branch taken adds its offset to the address of the next instruction, and pays for it (R130,
D21). -/
theorem exec_of_branch_taken (h : branchTest i.mnemonic = some x) (hy : branchTaken i s = true)
    (ht : exec i s = .next t) : t.pc = nextPc i s + effectiveAddress i.operand s ∧
      t.pending = i.entry.baseCycles + branchExtra (nextPc i s) t.pc := by
  rw [eq_of_exec ht, State.setPending_pc, State.setPending_pending, semantics_of_branch h,
    branchOrStay, branchTaken_resolve, cyclesOf_of_branch h, branchCycles_eq, hy]
  exact ⟨rfl, rfl⟩

end

/-- The eight branches, each with the flag it tests and the value it is taken on (R131, D19). -/
def branches (b : Byte) : List (Instr × Flag × Bool) :=
  [(.bcc b, .C, false), (.bcs b, .C, true), (.beq b, .Z, true), (.bne b, .Z, false),
   (.bmi b, .N, true), (.bpl b, .N, false), (.bvc b, .V, false), (.bvs b, .V, true)]

/-- The row of a branch in the tables of R62 and R131. -/
theorem row_of_branches {b : Byte} {q : Instr × Flag × Bool} (h : q ∈ branches b) :
    branchTest q.1.mnemonic = some q.2 ∧ q.1.mnemonic ∈ pcOnlyMnemonics ∧ q.1.operand = .rel b ∧
      q.1.length = 2 ∧ q.1.entry.baseCycles = 2 := by
  simp only [branches, List.mem_cons, List.not_mem_nil, or_false] at h
  rcases h with rfl | rfl | rfl | rfl | rfl | rfl | rfl | rfl <;>
    exact ⟨rfl, List.contains_iff_mem.mp rfl, rfl, rfl, rfl⟩

/-- Adding a sign-extended offset to a word is adding the signed number, modulo 65536 (R79). -/
theorem add_sext16_toNat (w : Addr) (b : Byte) :
    ((w + sext16 b).toNat : Int) = ((w.toNat : Int) + b.toInt) % 65536 := by
  have hsigned := BitVec.toInt_eq_toNat_cond (sext16 b)
  rw [sext16_toInt] at hsigned
  rw [BitVec.toNat_add, hsigned]
  split <;> omega

/-- The extra cycles of a taken branch, by page numbers (R130). -/
theorem branchExtra_eq (old new : Addr) :
    branchExtra old new = if new.toNat / 256 = old.toNat / 256 then 1 else 2 := by
  simp only [branchExtra, hiByte_bne_iff, ite_not]

/-- Settles O46: each branch is a row of the table, and is taken or not. -/
theorem branchesTestOneFlag : Obligations.BranchesTestOneFlag := by
  intro s b q (h : q ∈ branches b)
  obtain ⟨htest, hmem, hoperand, hlength, hcycles⟩ := row_of_branches h
  have hnext : nextPc q.1 s = s.pc + 2 := by rw [nextPc, hlength]; rfl
  have ht := exec_eq q.1 s
  refine ⟨_, ht, exec_of_pcOnly_frame hmem ht, fun hflag => ?_, fun hflag => ?_⟩
  · have hn : branchTaken q.1 s = false :=
      Bool.eq_false_of_not_eq_true fun hy => hflag ((branchTaken_iff htest).mp hy)
    obtain ⟨hpc, hpending⟩ := exec_of_branch_not_taken htest hn ht
    exact ⟨hpc.trans hnext, hpending.trans hcycles⟩
  · obtain ⟨hpc, hpending⟩ := exec_of_branch_taken htest ((branchTaken_iff htest).mpr hflag) ht
    rw [hnext, hoperand, effectiveAddress] at hpc
    rw [hnext, hcycles, branchExtra_eq] at hpending
    refine ⟨?_, ?_⟩
    · rw [hpc, add_sext16_toNat, BitVec.toNat_add]
      simp
    · rw [hpending]
      split <;> rfl

/-! ### JMP (R140) -/

/-- A jump goes to its effective address, in its base cycles. -/
theorem exec_of_jmp {i : Instr} (hm : i.mnemonic = .JMP) {s : State}
    (hc : pageCrossed i.operand s = false) :
    Answers (exec i s) fun t => t.pc = effectiveAddress i.operand s ∧
      t.pending = i.entry.baseCycles ∧ Frame s t [] [] [] := by
  have ht := exec_eq i s
  refine ⟨_, ht, ?_, ?_, exec_of_pcOnly_frame (by rw [hm]; decide) ht⟩
  · rw [State.setPending_pc, semantics, hm, State.setPc_pc, resolve_ea]
  · exact cyclesOf_of_not_crossed (by rw [hm]; rfl) hc

/-- Settles O47: neither mode of JMP crosses a page, and each address is read off its form. -/
theorem jumpsGoToTheEffectiveAddress : Obligations.JumpsGoToTheEffectiveAddress :=
  fun _ _ => ⟨rfl, rfl, exec_of_jmp rfl rfl, exec_of_jmp rfl rfl⟩

/-! ### JSR (R141) -/

/-- On the default bus, the bytes of a pushed word stand in the two slots (R44, R50). -/
theorem pushWord_byteAt (w : Addr) (s : State) (hb : s.bus = Bus.ram) (hw : s.mem.wf = true) :
    (pushWord w s).byteAt (stackAddr s.sp) = hiByte w ∧
    (pushWord w s).byteAt (stackAddr (s.sp - 1)) = loByte w := by
  refine ⟨?_, push_byteAt_same _ _ hb (push_wf _ _ hw)⟩
  have hne : stackAddr s.sp ≠ stackAddr (push (hiByte w) s).sp := by
    rw [push_sp, Ne, stackAddr_inj]
    exact (slots_ne s.sp).1
  rw [pushWord, push_byteAt_of_ne _ _ _ (by rwa [push_bus]) hne]
  exact push_byteAt_same _ _ hb hw

/-- JSR writes SP and the two slots of the word it pushes, and no flag; the tables do not look at its
operand. -/
theorem exec_of_jsr_frame {w : Addr} {s t : State} (ht : exec (.jsr w) s = .next t) :
    Frame s t [.SP] [] [stackAddr s.sp, stackAddr (s.sp - 1)] := by
  refine exec_frame ht (fun r => ?_) (fun f => ?_) rfl
  · show writesReg r (.jsr 0) = true → r ∈ [Reg.SP]
    cases r <;> decide
  · show Mnemonic.JSR ∈ flagWriters f → f ∈ []
    cases f <;> decide

/-- JSR pushes the address of its own last byte and jumps. -/
theorem exec_of_jsr (w : Addr) {s : State} (hw : s.mem.wf = true) :
    Answers (exec (.jsr w) s) fun t =>
      t.accesses = s.accesses ++ [.write (stackAddr s.sp) (hiByte (s.pc + 2)),
        .write (stackAddr (s.sp - 1)) (loByte (s.pc + 2))] ∧
      (s.bus = Bus.ram → t.byteAt (stackAddr s.sp) = hiByte (s.pc + 2) ∧
        t.byteAt (stackAddr (s.sp - 1)) = loByte (s.pc + 2)) ∧
      t.sp = s.sp - 2 ∧ t.pc = w ∧ t.pending = 6 ∧
      Frame s t [.SP] [] [stackAddr s.sp, stackAddr (s.sp - 1)] := by
  have ht := exec_eq (.jsr w) s
  have hlast : (resolve (.jsr w) s).pc - 1 = s.pc + 2 := by
    rw [resolve_pc, show (Instr.jsr w).length = 3 from rfl]
    bv_omega
  have hsem : semantics (.jsr w) (resolve (.jsr w) s) =
      (pushWord (s.pc + 2) (resolve (.jsr w) s)).setPc w := by
    rw [← hlast]
    rfl
  rw [hsem] at ht
  refine ⟨_, ht, ?_, fun hb => ?_, ?_, rfl, rfl, exec_of_jsr_frame ht⟩
  · rw [State.setPending_accesses, State.setPc_accesses, pushWord_accesses, resolve_sp]
    rfl
  · rw [State.setPending_byteAt, State.setPending_byteAt, State.setPc_byteAt, State.setPc_byteAt,
      ← resolve_sp (.jsr w) s]
    exact pushWord_byteAt _ _ (by rwa [resolve_bus]) (by rwa [resolve_mem])
  · obtain ⟨-, -, -, hsp, -⟩ := slots_ne s.sp
    rw [State.setPending_sp, State.setPc_sp, pushWord_sp, resolve_sp, hsp]

/-- Settles O48: the word pushed is PC + 3 - 1. -/
theorem jsrPushesReturnAddress : Obligations.JsrPushesReturnAddress :=
  fun w _ hw => ⟨rfl, exec_of_jsr w hw⟩

/-! ### RTS (R142) -/

/-- RTS writes SP, no flag and no memory. -/
theorem exec_of_rts_frame {s t : State} (ht : exec .rts s = .next t) : Frame s t [.SP] [] [] := by
  refine exec_frame ht (fun r => ?_) (fun f => ?_) rfl
  · cases r <;> decide
  · cases f <;> decide

/-- RTS pulls a word, low byte first, and goes to the address after it. -/
theorem exec_of_rts (s : State) :
    Answers (exec .rts s) fun t =>
      t.pc = s.wordAt (stackAddr (s.sp + 1)) (stackAddr (s.sp + 2)) + 1 ∧
      t.sp = s.sp + 2 ∧ t.pending = 6 ∧ Frame s t [.SP] [] [] := by
  have hsp : s.sp + 1 + 1 = s.sp + 2 := BitVec.add_assoc s.sp 1 1
  have ht := exec_eq .rts s
  refine ⟨_, ht, ?_, hsp, rfl, exec_of_rts_frame ht⟩
  rw [← hsp]
  rfl

/-- Settles O49: RTS pulls the two bytes JSR left, and the word they make is PC + 2. -/
theorem rtsPullsReturnAddress : Obligations.RtsPullsReturnAddress := by
  refine ⟨rfl, fun s => ?pulls, fun w s t u hb hub hw ht husp hubytes => ?undoes⟩
  case pulls =>
    obtain ⟨t, ht, hpc, hrest⟩ := exec_of_rts s
    refine ⟨t, ht, ?_, hrest⟩
    rw [hpc, BitVec.toNat_add, State.wordAt_toNat]
    rfl
  case undoes =>
    obtain ⟨t', ht', -, hbytes, hsp, -⟩ := exec_of_jsr w hw
    obtain rfl : t' = t := Host.Outcome.next.inj (ht'.symm.trans ht)
    obtain ⟨hhi, hlo⟩ := hbytes hb
    have hslot : u.sp + 1 = s.sp - 1 := by rw [husp, hsp]; bv_omega
    have htop : u.sp + 2 = s.sp := by rw [husp, hsp, BitVec.sub_add_cancel]
    obtain ⟨v, hv, hvpc, hvsp, -⟩ := exec_of_rts u
    refine ⟨v, hv, ?_, hvsp.trans htop⟩
    have hword : u.wordAt (stackAddr (u.sp + 1)) (stackAddr (u.sp + 2)) = s.pc + 2 := by
      rw [State.wordAt, u.noteRead_byteAt_of_ram hub, hslot, htop, hubytes _ (by simp),
        hubytes _ (by simp), hhi, hlo, joinBytes_hi_lo]
    rw [hvpc, hword]
    exact BitVec.add_assoc s.pc 2 1

end Sys2Proof.Machine
end

section
/-! Family `47_system.md` (R143 to R146): the entry through a vector, which BRK shares with IRQ and
NMI; RTI by its three pulls; and the two kinds of no-operation. -/

namespace Sys2Proof.Machine

/-! ### Entry through a vector (R158) -/

/-- What an entry through a vector outside the stack page does, from a state whose memory is in
canonical form: the accesses, the bytes they leave in RAM, and SP, I and U. -/
theorem enter_answers (b : Bool) {vec : Addr} {s : State} (hw : s.mem.wf = true)
    (hlo : 512 ≤ vec.toNat) (hhi : 512 ≤ (vec + 1).toNat) :
    (∃ lo hi : Byte, (enter b vec s).pc = joinBytes hi lo ∧
      (enter b vec s).accesses = s.accesses ++ [.write (stackAddr s.sp) (hiByte s.pc),
        .write (stackAddr (s.sp - 1)) (loByte s.pc), .write (stackAddr (s.sp - 2)) (pushedP s.p b),
        .read vec lo, .read (vec + 1) hi]) ∧
    (s.bus = Bus.ram →
      (enter b vec s).byteAt (stackAddr s.sp) = hiByte s.pc ∧
      (enter b vec s).byteAt (stackAddr (s.sp - 1)) = loByte s.pc ∧
      (enter b vec s).byteAt (stackAddr (s.sp - 2)) = pushedP s.p b ∧
      (enter b vec s).pc = joinBytes (s.byteAt (vec + 1)) (s.byteAt vec)) ∧
    (enter b vec s).sp = s.sp - 3 ∧ (enter b vec s).flag .I = true ∧
    (enter b vec s).flag .U = true := by
  refine ⟨enter_accesses_pc b vec s, fun hb => ?_, ?_, by simp, by simp⟩
  · obtain ⟨hpch, hpcl, hp⟩ := enter_pushes b vec s hb hw
    exact ⟨hpch, hpcl, hp, enter_pc_of_high b vec s hb hlo hhi⟩
  · obtain ⟨-, -, -, -, hsp⟩ := slots_ne s.sp
    rw [enter_sp, hsp]

/-! ### BRK (R143) -/

/-- BRK is the entry from the address after its padding byte, with B pushed as 1, in 7 cycles. -/
theorem exec_brk (s : State) :
    exec .brk s = .next ((enter true Config.irqVector
      { s with pc := s.pc + 2, cur := Instr.brk.entry }).setPending 7) := by
  have hpc : (resolve .brk s).pc + 1 = s.pc + 2 := BitVec.add_assoc s.pc 1 1
  rw [exec_eq, semantics, ← hpc]
  rfl

/-- BRK writes SP, I, U and the three slots it pushes to. -/
theorem exec_of_brk_frame {s t : State} (ht : exec .brk s = .next t) :
    Frame s t [.SP] [.I, .U] [stackAddr s.sp, stackAddr (s.sp - 1), stackAddr (s.sp - 2)] := by
  refine exec_frame ht (fun r => ?_) (fun f => ?_) rfl
  · cases r <;> decide
  · cases f <;> decide

/-- Settles O50: BRK is an entry through the IRQ/BRK vector, and I is not looked at. -/
theorem brkEntersThroughVector : Obligations.BrkEntersThroughVector := by
  intro s hw
  obtain ⟨hbus, hram, hsp, hI, hU⟩ := enter_answers true (vec := Config.irqVector)
    (s := { s with pc := s.pc + 2, cur := Instr.brk.entry }) hw (by decide) (by decide)
  rw [← pushedP_true]
  exact ⟨_, exec_brk s, hbus, hram, hsp, hI, hU, rfl, exec_of_brk_frame (exec_brk s)⟩

/-! ### RTI (R144) -/

/-- RTI writes SP, P and no memory. -/
theorem exec_of_rti_frame {s t : State} (ht : exec .rti s = .next t) :
    Frame s t [.SP] allFlags [] := by
  refine exec_frame ht (fun r => ?_) (fun f => ?_) rfl
  · cases r <;> decide
  · cases f <;> decide

/-- RTI pulls P, then a word, and goes to that word. -/
theorem exec_of_rti (s : State) :
    Answers (exec .rti s) fun t =>
      t.p = s.byteAt (stackAddr (s.sp + 1)) ||| 0x20 ∧
      t.pc = (s.noteRead (stackAddr (s.sp + 1))).wordAt (stackAddr (s.sp + 2))
        (stackAddr (s.sp + 3)) ∧
      t.sp = s.sp + 3 ∧ t.pending = 6 ∧ Frame s t [.SP] allFlags [] := by
  have hsp2 : s.sp + 1 + 1 = s.sp + 2 := BitVec.add_assoc s.sp 1 1
  have hsp3 : s.sp + 1 + 1 + 1 = s.sp + 3 := by bv_omega
  have ht : exec .rti s = .next ((returnFromInterrupt (resolve .rti s)).setPending 6) :=
    exec_eq .rti s
  refine ⟨_, ht, rfl, ?_, hsp3, rfl, exec_of_rti_frame ht⟩
  rw [State.setPending_pc, returnFromInterrupt_pc, pullWord_fst, pull_wordAt, pull_sp, resolve_sp,
    hsp3, hsp2]
  rfl

/-- Settles O51: the word RTI goes to is the two bytes above P. -/
theorem rtiRestoresStatusAndPc : Obligations.RtiRestoresStatusAndPc := exec_of_rti

/-! ### NOP and the undocumented bytes (R145, R146) -/

/-- Settles O53: NOP is the resolver of an implied instruction and its cycle count. -/
theorem nopOnlyAdvances : Obligations.NopOnlyAdvances := fun _ => rfl

/-- Settles O54: the sentinel is one byte long and runs as NOP does. -/
theorem illegalIsNoOp : Obligations.IllegalIsNoOp := fun op s _ => ⟨rfl, exec_illegal op s⟩

end Sys2Proof.Machine
end

section
/-! Family `48_step_machine.md` (R147 to R155): the two kinds of `step` of a powered core, the cycle
counts and the calls they take, the trace snapshot, and that trace mode influences nothing else. -/

namespace Sys2Proof.Machine

/-! ### The two kinds of `step` of a powered core (R147, R150) -/

/-- Away from a boundary a `step` of a powered core counts down (R150). -/
theorem step_of_pending {s : State} (hp : s.powered = true) (h : 0 < s.pending) :
    step s = .next (countDown s) := by
  simp [step, hp, Nat.ne_of_gt h]

/-- At a boundary a `step` of a powered core runs the whole instruction at PC (R147). -/
theorem step_of_fetch {s : State} {i : Instr} {rest : List Byte} (hp : s.powered = true)
    (h0 : s.pending = 0) (hd : decode s.fetchWindow = .ok i rest) :
    ∃ u, exec i (s.afterFetch i) = .next u ∧ step s = .next (finishFetchCall s i u) := by
  have hu := exec_eq i (s.afterFetch i)
  refine ⟨_, hu, ?_⟩
  rw [step_of_decode hp h0 hd, hu, mapNext]

/-- A `step` of a powered core always answers: some instruction stands at PC (R61, R156). -/
theorem step_answers {s : State} (hp : s.powered = true) : ∃ t, step s = .next t := by
  rcases Nat.eq_zero_or_pos s.pending with h0 | hpos
  · obtain ⟨i, rest, hd⟩ := fetchWindow_decodes s
    obtain ⟨u, -, hstep⟩ := step_of_fetch hp h0 hd
    exact ⟨_, hstep⟩
  · exact ⟨_, step_of_pending hp hpos⟩

/-- Settles O6: the fetch delivers the instruction that the bytes at PC decode to. -/
theorem stepRunsDecodedInstruction : Obligations.StepRunsDecodedInstruction :=
  fun _ _ _ hp h0 hd => step_of_decode hp h0 hd

/-- Settles O7: counting down begins a call and lowers `pending`. -/
theorem countdownStepOnlyCounts : Obligations.CountdownStepOnlyCounts :=
  fun _ hp hpos => step_of_pending hp hpos

/-! ### Nothing faults (R156) -/

/-- Settles O9: three bytes always decode, to a well-formed instruction; every instruction and every
`step` of a powered core answers; and there is no fault for a call to answer. -/
theorem everyInstructionCompletes : Obligations.EveryInstructionCompletes := by
  refine ⟨fun op b c => ?_, fun i s => ⟨_, exec_eq i s⟩, fun _ => step_answers,
    fun _ _ r => nomatch r⟩
  obtain ⟨i, tail, hd, -, -⟩ := decode_of_three_bytes op b c []
  exact ⟨i, tail, hd, (encodeOfDecode _ i tail hd).1⟩

/-! ### Cycle counts (R149) -/

/-- Every row of the table takes at least 2 cycles (R62). -/
theorem two_le_baseCycles (i : Instr) : 2 ≤ i.entry.baseCycles := by
  cases i <;> exact Nat.le_of_ble_eq_true rfl

/-- An instruction that pays for a page crossing has a cycle to spare (R62, R80). -/
theorem baseCycles_le_of_pays {i : Instr} (h : paysPagePenalty i.mnemonic = true) :
    i.entry.baseCycles ≤ 6 := by
  have table : (paysPagePenalty i.mnemonic && !decide (i.entry.baseCycles ≤ 6)) = false := by
    cases i <;> rfl
  simpa [h] using table

/-- A branch has 2 base cycles (R62). -/
theorem baseCycles_of_branch {i : Instr} {b : Flag × Bool} (h : branchTest i.mnemonic = some b) :
    i.entry.baseCycles = 2 := by
  have table : ((branchTest i.mnemonic).isSome && i.entry.baseCycles != 2) = false := by
    cases i <;> rfl
  simpa [h] using table

/-- No instruction has both kinds of extra cycle: what pays for a page crossing is no branch. -/
theorem resolverExtra_or_branchCycles_eq_zero (i : Instr) (s : State) :
    resolverExtra i s = 0 ∨ branchCycles i s = 0 := by
  cases h : branchTest i.mnemonic with
  | none => exact .inr (branchCycles_of_not_branch h s)
  | some b => exact .inl (resolverExtra_of_not_pays (not_pays_of_branch h) s)

/-- With its page penalty an instruction takes at most 7 cycles. -/
theorem baseCycles_add_resolverExtra_le (i : Instr) (s : State) :
    i.entry.baseCycles + resolverExtra i s ≤ 7 := by
  cases h : paysPagePenalty i.mnemonic with
  | false =>
    rw [resolverExtra_of_not_pays h]
    exact baseCycles_le i
  | true => exact Nat.add_le_add (baseCycles_le_of_pays h) (resolverExtra_le i s)

/-- Every instruction takes 2 to 7 cycles (R149). -/
theorem cyclesOf_bounds (i : Instr) (s : State) : 2 ≤ cyclesOf i s ∧ cyclesOf i s ≤ 7 := by
  have hbase := two_le_baseCycles i
  cases h : branchTest i.mnemonic with
  | none =>
    have hle := baseCycles_add_resolverExtra_le i s
    rw [cyclesOf, branchCycles_of_not_branch h]
    omega
  | some b =>
    have hbranch := branchCycles_le i s
    rw [cyclesOf_of_branch h, baseCycles_of_branch h]
    omega

/-- Settles O10: `exec` charges `cyclesOf`, whose bounds follow from the table. -/
theorem cycleCounts : Obligations.CycleCounts := by
  intro i s
  obtain ⟨hge, hle⟩ := cyclesOf_bounds i s
  exact ⟨_, exec_eq i s, rfl, hge, hle, resolverExtra_or_branchCycles_eq_zero i s⟩

/-! ### The calls an instruction takes (R147, R150, R152) -/

/-- An instruction does not switch the core off. -/
theorem exec_keeps_powered {i : Instr} {s t : State} (h : exec i s = .next t) :
    t.powered = s.powered := by
  obtain ⟨u, hu, -, -, hpowered, -⟩ := eaAndCurAreOfTheInstruction i s
  obtain rfl := Host.Outcome.next.inj (h.symm.trans hu)
  exact hpowered

/-- Calls that count down: `k` of them take `pending` down by `k`, and beginning them is all else
they do (R150). -/
theorem run_of_pending {s : State} {k : Nat} (hp : s.powered = true) (hpos : 0 < k)
    (hk : k ≤ s.pending) :
    Host.Core.run core k s = .next (s.beginCall.setPending (s.pending - k)) := by
  induction k, hpos using Nat.le_induction with
  | base => exact (run_succ (M := core) 0 s s rfl).trans (step_of_pending hp hk)
  | succ k _ ih =>
    have hbegin : (s.beginCall.setPending (s.pending - k)).beginCall =
        s.beginCall.setPending (s.pending - k) :=
      congrArg (State.setPending · (s.pending - k)) (beginCall_beginCall s)
    have hstep : step (s.beginCall.setPending (s.pending - k)) = _ :=
      step_of_pending hp (Nat.sub_pos_of_lt hk)
    rw [countDown, hbegin] at hstep
    exact (run_succ (M := core) k s _ (ih (Nat.le_of_succ_le hk))).trans hstep

/-- Settles O11: the fetch call leaves one cycle less than the instruction takes, and the calls
after it count down. -/
theorem instructionOccupiesItsCycles : Obligations.InstructionOccupiesItsCycles := by
  intro s i rest hp h0 hd
  obtain ⟨u, hu, hstep⟩ := step_of_fetch hp h0 hd
  have hpowered : (finishFetchCall s i u).powered = true :=
    (exec_keeps_powered hu).trans (by simpa [State.afterFetch] using hp)
  refine ⟨_, hstep, ?_, fun k hpos hk => run_of_pending hpowered hpos hk⟩
  obtain ⟨hge, -⟩ := cyclesOf_bounds i (s.afterFetch i)
  have hpending : u.pending = cyclesOf i (s.afterFetch i) := by rw [eq_of_exec hu]; rfl
  show u.pending - 1 + 1 = _
  omega

/-! ### The trace snapshot (R153) -/

theorem encode_length (i : Instr) : (encode i).length = i.length := by
  cases i <;> rfl

/-- The bytes of the instruction at PC are the first of those a fetch can read. -/
theorem take_fetchWindow {s : State} {i : Instr} {rest : List Byte}
    (hd : decode s.fetchWindow = .ok i rest) : s.fetchWindow.take i.length = encode i := by
  obtain ⟨-, hbytes⟩ := encodeOfDecode _ i rest hd
  rw [hbytes, ← encode_length, List.take_left]

/-- The operand byte of a two-byte instruction at PC is the byte read after the opcode. -/
theorem byteAt_of_operand_bytes {s : State} {i : Instr} {rest : List Byte} {b : Byte}
    (hd : decode s.fetchWindow = .ok i rest) (hb : i.operand.bytes = [b]) :
    (s.noteRead s.pc).byteAt (s.pc + 1) = b := by
  obtain ⟨-, hbytes⟩ := encodeOfDecode _ i rest hd
  rw [encode, hb] at hbytes
  simp only [State.fetchWindow, List.cons_append, List.cons.injEq] at hbytes
  obtain ⟨-, hsecond, -⟩ := hbytes
  exact hsecond

/-- The operand value of the snapshot, mode by mode (R153, D23). -/
theorem traceOperand_of_decode {s : State} {i : Instr} {rest : List Byte} {v : OperandValue}
    (hd : decode s.fetchWindow = .ok i rest)
    (hv : v = traceOperand i s.pc (effectiveAddress i.operand (s.afterFetch i))) :
    (i.mode = .IMM → v = .byte ((s.noteRead s.pc).byteAt (s.pc + 1))) ∧
    (i.mode = .REL → v = .word (s.pc + 2 + sext16 ((s.noteRead s.pc).byteAt (s.pc + 1)))) ∧
    (i.mode = .IMP ∨ i.mode = .ACC → v = .none) ∧
    (i.mode ≠ .IMM → i.mode ≠ .REL → i.mode ≠ .IMP → i.mode ≠ .ACC →
      v = .word (effectiveAddress i.operand (s.afterFetch i))) := by
  subst hv
  rw [← operand_mode]
  cases ho : i.operand with
  | imm b =>
    rw [byteAt_of_operand_bytes (b := b) hd (by rw [ho]; rfl)]
    simp [traceOperand, ho, Operand.mode]
  | rel b =>
    rw [byteAt_of_operand_bytes (b := b) hd (by rw [ho]; rfl)]
    simp [traceOperand, ho, Operand.mode, effectiveAddress]
  | _ => simp [traceOperand, ho, Operand.mode]

/-- An instruction leaves in `ea` what its resolver set. -/
theorem ea_of_exec {i : Instr} {s t : State} (h : exec i s = .next t) :
    t.ea = effectiveAddress i.operand s := by
  obtain ⟨u, hu, -, hea, -⟩ := eaAndCurAreOfTheInstruction i s
  obtain rfl := Host.Outcome.next.inj (h.symm.trans hu)
  exact hea

/-- Settles O13: the snapshot is taken of the state before the fetch and of the bytes fetched. -/
theorem traceSnapshotContent : Obligations.TraceSnapshotContent := by
  intro s i rest hp h0 hd
  obtain ⟨u, hu, hstep⟩ := step_of_fetch hp h0 hd
  refine ⟨_, hstep, fun hoff => ?_, fun hon => ?_⟩
  · simp [finishFetchCall, hoff]
  · refine ⟨_, ?_, traceOperand_of_decode hd rfl⟩
    simp [finishFetchCall, hon, snapshot, take_fetchWindow hd, ea_of_exec hu]

/-! ### Hiding the trace (R154) -/

/-- Recording reads looks at the bus, the memory and the record of accesses only. -/
theorem hideTrace_noteReads (s : State) (l : List Addr) :
    s.hideTrace.noteReads l = (s.noteReads l).hideTrace := by
  induction l generalizing s with
  | nil => rfl
  | cons a l ih => exact ih (s.noteRead a)

theorem hideTrace_pointerReads (o : Operand) (s : State) :
    pointerReads o s.hideTrace = pointerReads o s := by
  cases o <;> rfl

theorem hideTrace_effectiveAddress (o : Operand) (s : State) :
    effectiveAddress o s.hideTrace = effectiveAddress o s := by
  cases o <;> rfl

theorem hideTrace_resolve (i : Instr) (s : State) :
    resolve i s.hideTrace = (resolve i s).hideTrace := by
  simp only [resolve, hideTrace_pointerReads, hideTrace_effectiveAddress, hideTrace_noteReads]
  rfl

theorem hideTrace_cyclesOf (i : Instr) (s : State) : cyclesOf i s.hideTrace = cyclesOf i s := by
  have hcrossed : pageCrossed i.operand s.hideTrace = pageCrossed i.operand s := by
    cases i.operand <;> rfl
  have hbranch : branchCycles i s.hideTrace = branchCycles i s := by
    rw [branchCycles, hideTrace_effectiveAddress]
    rfl
  rw [cyclesOf, resolverExtra, hcrossed, hbranch, cyclesOf, resolverExtra]

/-- Reading the operand looks at nothing that is hidden. -/
theorem hideTrace_operandByte (i : Instr) (s : State) :
    operandByte i s.hideTrace = ((operandByte i s).1, (operandByte i s).2.hideTrace) := by
  unfold operandByte
  cases i.operand <;> rfl

theorem hideTrace_onOperand {f : Byte → State → State}
    (hf : ∀ m r, f m r.hideTrace = (f m r).hideTrace) (i : Instr) (s : State) :
    onOperand i f s.hideTrace = (onOperand i f s).hideTrace := by
  rw [onOperand, hideTrace_operandByte]
  exact hf _ _

theorem hideTrace_modify (o : Operand) (f : Byte → Byte → ModifyResult) (s : State) :
    modify o f s.hideTrace = (modify o f s).hideTrace := by
  cases o <;> rfl

theorem hideTrace_branchOrStay (i : Instr) (s : State) :
    branchOrStay i s.hideTrace = (branchOrStay i s).hideTrace := by
  have htaken : branchTaken i s.hideTrace = branchTaken i s := rfl
  rw [branchOrStay, branchOrStay, htaken]
  cases branchTaken i s <;> rfl

/-- No semantics look at the trace or the trace setting (R154). -/
theorem hideTrace_semantics (i : Instr) (s : State) :
    semantics i s.hideTrace = (semantics i s).hideTrace := by
  rw [semantics, semantics]
  cases i.mnemonic with
  | LDA | LDX | LDY | ADC | SBC | CMP | CPX | CPY | AND | ORA | EOR | BIT =>
    refine hideTrace_onOperand (fun m r => ?_) i s
    rfl
  | ASL | LSR | ROL | ROR | INC | DEC => exact hideTrace_modify _ _ s
  | BCC | BCS | BEQ | BNE | BMI | BPL | BVC | BVS => exact hideTrace_branchOrStay i s
  | _ => rfl

theorem hideTrace_exec (i : Instr) (s : State) :
    exec i s.hideTrace = mapNext State.hideTrace (exec i s) := by
  rw [exec_eq, exec_eq, hideTrace_cyclesOf, hideTrace_resolve, hideTrace_semantics]
  rfl

/-- A call begun from the state another call begins in, the trace hidden, begins there. -/
theorem beginCall_hideTrace_beginCall (s : State) :
    s.beginCall.hideTrace.beginCall = s.beginCall.hideTrace :=
  congrArg State.hideTrace (beginCall_beginCall s)

theorem hideTrace_afterFetch (i : Instr) (s : State) :
    s.beginCall.hideTrace.afterFetch i = (s.afterFetch i).hideTrace := by
  rw [State.afterFetch, beginCall_hideTrace_beginCall]
  exact hideTrace_noteReads _ _

/-- What a `step` answers, the trace hidden, is fixed by the state its call begins in, the trace
hidden. -/
theorem hideTrace_step (s : State) :
    mapNext State.hideTrace (step s) = mapNext State.hideTrace (step s.beginCall.hideTrace) := by
  cases hp : s.powered with
  | false => rw [step_of_not_powered hp, step_of_not_powered (s := s.beginCall.hideTrace) hp]
  | true =>
    rcases Nat.eq_zero_or_pos s.pending with h0 | hpos
    · obtain ⟨i, rest, hd⟩ := fetchWindow_decodes s
      have hd' : decode s.beginCall.hideTrace.fetchWindow = .ok i rest :=
        (congrArg decode (beginCall_fetchWindow s)).trans hd
      rw [step_of_decode hp h0 hd, step_of_decode (s := s.beginCall.hideTrace) hp h0 hd',
        hideTrace_afterFetch, hideTrace_exec]
      cases exec i (s.afterFetch i) <;> rfl
    · rw [step_of_pending hp hpos, step_of_pending (s := s.beginCall.hideTrace) hp hpos, countDown,
        countDown, beginCall_hideTrace_beginCall]
      rfl

/-- Settles O12: each of the two steps answers, the trace hidden, what the state their calls begin
in answers, the trace hidden. -/
theorem traceModeChangesOnlyTrace : Obligations.TraceModeChangesOnlyTrace := by
  intro s₁ s₂ h
  rw [hideTrace_step s₁, h, ← hideTrace_step s₂]

end Sys2Proof.Machine
end

section
/-! Family `60_exceptions.md` (R156 to R168): IRQ and NMI as one interrupt entry, and RTI as what
undoes every entry. -/

namespace Sys2Proof.Machine

/-! ### The entry by a host call (R158, R160, R161) -/

/-- A powered core at a boundary gives an interrupt request its answer (R159). -/
theorem admitted_of_boundary {s : State} (answer : State) (hp : s.powered = true)
    (h0 : s.pending = 0) : admitted s answer = .next answer := by
  simp [admitted, hp, h0]

/-- Beginning a call is outside every frame. -/
theorem Frame.of_beginCall {s t : State} {rs : List Reg} {fs : List Flag} {as : List Addr}
    (h : Frame s.beginCall t rs fs as) : Frame s t rs fs as := by
  obtain ⟨hregs, hflags, hmemory, hbus, hpowered, htrace⟩ := h
  exact ⟨fun r hr => (hregs r hr).trans (by cases r <;> rfl), hflags, hmemory.congr hbus rfl, hbus,
    hpowered, htrace⟩

/-- An interrupt entry writes SP, I, U and the three slots it pushes to. -/
theorem interruptEntry_frame (vec : Addr) (s : State) :
    Frame s (interruptEntry vec s) [.SP] [.I, .U]
      [stackAddr s.sp, stackAddr (s.sp - 1), stackAddr (s.sp - 2)] := by
  obtain ⟨hregs, hflags, hmemory, hbus, hpowered, htrace⟩ := enter_frame false vec s.beginCall
  refine Frame.of_beginCall ⟨fun r hr => ?_, hflags, hmemory.congr hbus rfl, hbus, hpowered, htrace⟩
  rw [interruptEntry, State.setPending_reg, hregs r hr]

/-- What an interrupt entry does: the entry with B pushed as 0, in 7 cycles (R158, D4, D8). -/
theorem interruptEntry_answers {vec : Addr} {s : State} (hw : s.mem.wf = true)
    (hlo : 512 ≤ vec.toNat) (hhi : 512 ≤ (vec + 1).toNat) :
    (∃ lo hi : Byte, (interruptEntry vec s).pc = joinBytes hi lo ∧
      (interruptEntry vec s).accesses = [.write (stackAddr s.sp) (hiByte s.pc),
        .write (stackAddr (s.sp - 1)) (loByte s.pc),
        .write (stackAddr (s.sp - 2)) ((s.p &&& 0xEF) ||| 0x20), .read vec lo,
        .read (vec + 1) hi]) ∧
    (s.bus = Bus.ram →
      (interruptEntry vec s).byteAt (stackAddr s.sp) = hiByte s.pc ∧
      (interruptEntry vec s).byteAt (stackAddr (s.sp - 1)) = loByte s.pc ∧
      (interruptEntry vec s).byteAt (stackAddr (s.sp - 2)) = (s.p &&& 0xEF) ||| 0x20 ∧
      (interruptEntry vec s).pc = joinBytes (s.byteAt (vec + 1)) (s.byteAt vec)) ∧
    (interruptEntry vec s).sp = s.sp - 3 ∧ (interruptEntry vec s).flag .I = true ∧
    (interruptEntry vec s).flag .U = true ∧ (interruptEntry vec s).pending = 7 ∧
    (interruptEntry vec s).trace = none ∧
    Frame s (interruptEntry vec s) [.SP] [.I, .U]
      [stackAddr s.sp, stackAddr (s.sp - 1), stackAddr (s.sp - 2)] := by
  obtain ⟨hbus, hram, hsp, hI, hU⟩ := enter_answers false (s := s.beginCall) hw hlo hhi
  rw [← pushedP_false, ← s.beginCall_byteAt, ← s.beginCall_byteAt]
  exact ⟨hbus, hram, hsp, hI, hU, rfl, enter_trace false vec s.beginCall,
    interruptEntry_frame vec s⟩

/-- Settles O55: with I set `irq()` only begins a call; with I clear it is an interrupt entry. -/
theorem irqIsMaskable : Obligations.IrqIsMaskable := by
  intro s hp h0 hw
  refine ⟨fun hI => ?_, fun hI => ?_⟩ <;> rw [irq, admitted_of_boundary _ hp h0, hI]
  · rfl
  · exact ⟨_, rfl, interruptEntry_answers (vec := Config.irqVector) hw (by decide) (by decide)⟩

/-- Settles O56: `nmi()` is an interrupt entry, whatever I holds. -/
theorem nmiIsNotMaskable : Obligations.NmiIsNotMaskable := by
  intro s hp h0 hw
  exact ⟨_, admitted_of_boundary _ hp h0,
    interruptEntry_answers (vec := Config.nmiVector) hw (by decide) (by decide)⟩

/-! ### RTI after an entry (R162, R164) -/

/-- On the default bus the two bytes of a word read from memory stand there together (R45). -/
theorem State.wordAt_of_ram (s : State) (hb : s.bus = Bus.ram) (lo hi : Addr) :
    s.wordAt lo hi = joinBytes (s.byteAt hi) (s.byteAt lo) := by
  rw [State.wordAt, s.noteRead_byteAt_of_ram hb]

section
variable {s t u : State}

/-- RTI from a stack as an entry from `s` left it, with `pc` and `p` pushed. -/
theorem exec_of_rti_after_entry {pc : Addr} {p : Byte} (hb : u.bus = Bus.ram)
    (htsp : t.sp = s.sp - 3) (hpch : t.byteAt (stackAddr s.sp) = hiByte pc)
    (hpcl : t.byteAt (stackAddr (s.sp - 1)) = loByte pc)
    (hp : t.byteAt (stackAddr (s.sp - 2)) = p) (husp : u.sp = t.sp)
    (hubytes : ∀ a ∈ [stackAddr s.sp, stackAddr (s.sp - 1), stackAddr (s.sp - 2)],
      u.byteAt a = t.byteAt a) :
    Answers (exec .rti u) fun v => v.pc = pc ∧ v.sp = s.sp ∧ v.p = p ||| 0x20 := by
  have hsp1 : u.sp + 1 = s.sp - 2 := by rw [husp, htsp]; bv_omega
  have hsp2 : u.sp + 2 = s.sp - 1 := by rw [husp, htsp]; bv_omega
  have hsp3 : u.sp + 3 = s.sp := by rw [husp, htsp, BitVec.sub_add_cancel]
  obtain ⟨v, hv, hvp, hvpc, hvsp, -⟩ := exec_of_rti u
  refine ⟨v, hv, ?_, hvsp.trans hsp3, ?_⟩
  · rw [hvpc, (u.noteRead _).wordAt_of_ram hb, u.noteRead_byteAt_of_ram hb,
      u.noteRead_byteAt_of_ram hb, hsp2, hsp3, hubytes _ (by simp), hubytes _ (by simp), hpch, hpcl,
      joinBytes_hi_lo]
  · rw [hvp, hsp1, hubytes _ (by simp), hp]

/-- After BRK, RTI resumes at BRK address + 2, past the padding byte. -/
theorem exec_of_rti_after_brk (hb : s.bus = Bus.ram) (hub : u.bus = Bus.ram) (hw : s.mem.wf = true)
    (ht : exec .brk s = .next t) (husp : u.sp = t.sp)
    (hubytes : ∀ a ∈ [stackAddr s.sp, stackAddr (s.sp - 1), stackAddr (s.sp - 2)],
      u.byteAt a = t.byteAt a) :
    Answers (exec .rti u) fun v => v.pc = s.pc + 2 ∧ v.sp = s.sp ∧ v.p = s.p ||| 0x30 := by
  obtain ⟨t', ht', -, hbytes, hsp, -⟩ := brkEntersThroughVector s hw
  obtain rfl : t' = t := Host.Outcome.next.inj (ht'.symm.trans ht)
  obtain ⟨hpch, hpcl, hp, -⟩ := hbytes hb
  obtain ⟨v, hv, hvpc, hvsp, hvp⟩ := exec_of_rti_after_entry hub hsp hpch hpcl hp husp hubytes
  exact ⟨v, hv, hvpc, hvsp, hvp.trans (BitVec.or_assoc _ _ _)⟩

/-- After an interrupt entry, RTI resumes at the instruction that would have run next. -/
theorem exec_of_rti_after_interruptEntry {vec : Addr} (hb : s.bus = Bus.ram) (hub : u.bus = Bus.ram)
    (hw : s.mem.wf = true) (hlo : 512 ≤ vec.toNat) (hhi : 512 ≤ (vec + 1).toNat)
    (ht : t = interruptEntry vec s) (husp : u.sp = t.sp)
    (hubytes : ∀ a ∈ [stackAddr s.sp, stackAddr (s.sp - 1), stackAddr (s.sp - 2)],
      u.byteAt a = t.byteAt a) :
    Answers (exec .rti u) fun v =>
      v.pc = s.pc ∧ v.sp = s.sp ∧ v.p = (s.p &&& 0xEF) ||| 0x20 := by
  subst ht
  obtain ⟨-, hbytes, hsp, -⟩ := interruptEntry_answers (vec := vec) hw hlo hhi
  obtain ⟨hpch, hpcl, hp, -⟩ := hbytes hb
  obtain ⟨v, hv, hvpc, hvsp, hvp⟩ := exec_of_rti_after_entry hub hsp hpch hpcl hp husp hubytes
  exact ⟨v, hv, hvpc, hvsp, hvp.trans (BitVec.or_assoc _ _ _)⟩

end

/-- Settles O52: an entry leaves in the stack what RTI pulls, and U is pushed as 1 already. -/
theorem rtiUndoesEntry : Obligations.RtiUndoesEntry := by
  intro s t u hb hub hw husp hubytes
  refine ⟨fun ht => exec_of_rti_after_brk hb hub hw ht husp hubytes, fun ht => ?_⟩
  rcases ht with hnmi | ⟨hirq, hI⟩
  · obtain ⟨-, -, ht⟩ := admitted_cases hnmi
    exact exec_of_rti_after_interruptEntry hb hub hw (by decide) (by decide) ht husp hubytes
  · rw [irq, hI] at hirq
    obtain ⟨-, -, ht⟩ := admitted_cases hirq
    exact exec_of_rti_after_interruptEntry hb hub hw (by decide) (by decide) ht husp hubytes

end Sys2Proof.Machine
end

section
/-! Family `70_reset_and_hazards.md` (R172, R173): the reset, field by field, and the first
instruction after it. -/

namespace Sys2Proof.Machine

/-- Settles O57: a reset begins a call, reads its vector and writes the registers. -/
theorem resetSequence : Obligations.ResetSequence := by
  intro s
  simp only [← s.beginCall_byteAt 0xFFFC]
  exact ⟨rfl, rfl, rfl, rfl, rfl, rfl, rfl, rfl, rfl, rfl, rfl, rfl, rfl, rfl⟩

/-- Settles O58: the reset leaves 8 cycles to count down, and the call after them finds the core at
a boundary. -/
theorem ninthStepAfterResetFetches : Obligations.NinthStepAfterResetFetches := by
  intro s i rest r
  have hrun : Host.Core.run core 8 (resetCall s) = .next r :=
    run_of_pending rfl (by decide) (Nat.le_refl 8)
  refine ⟨hrun, fun hd => ?_⟩
  exact (run_succ (M := core) 8 _ _ hrun).trans (step_of_decode rfl rfl hd)

end Sys2Proof.Machine
end
